-- ==== Sys2Proof/Word.lean ====
section
/-!
DEFINITION. The plain data of the engine: bytes, command and response words, the 16-byte block
(00_scope.md rule R8) and the 4-byte word of the AES key schedule (41_aes128_encrypt.md rule R97).
-/

namespace Sys2Proof

/-- A byte: an unsigned integer 0..255 (rule R8). -/
abbrev Byte := BitVec 8

/-- One command word, 16 bits (30_encoding.md rule R50). -/
abbrev CommandWord := BitVec 16

/-- One response word, 16 bits (30_encoding.md rule R53). -/
abbrev ResponseWord := BitVec 16

/-- A block: a byte sequence of length 16; byte 0 is the first byte (rule R8). -/
abbrev Block := Vector Byte 16

/-- `0^16`, sixteen bytes `0x00` (rule R8). -/
def Block.zero : Block := Vector.replicate 16 0

/-- The 4-byte word `(a0, a1, a2, a3)` of the key schedule (rule R97). -/
structure AesWord where
  a0 : Byte
  a1 : Byte
  a2 : Byte
  a3 : Byte
deriving DecidableEq, Repr

end Sys2Proof
end

