-- ==== Sys2Proof/Syntax.lean ====
section
/-!
DEFINITION. The fourteen commands of the engine, one constructor per row of spec/opcode_table.json
(30_encoding.md rule R52), with the operand of their format (rules R51 and R59).
-/

namespace Sys2Proof

/-- A decoded command. Format N has no operand, format B a byte, format I a 4-bit index (rule R51). -/
inductive Instr where
  /-- NOP, 40_control_and_buffer_commands.md rule R71. -/
  | nop
  /-- SRST, rule R72. -/
  | srst
  /-- CLRK, rule R75. -/
  | clrk
  /-- CLRD, rule R73. -/
  | clrd
  /-- KPUSH data, rule R74. -/
  | kpush (data : Byte)
  /-- DPUSH data, rule R76. -/
  | dpush (data : Byte)
  /-- MPUSH data, 42_cmac.md rule R126. -/
  | mpush (data : Byte)
  /-- ENC, 41_aes128_encrypt.md rule R101. -/
  | enc
  /-- MINIT, 42_cmac.md rule R125. -/
  | minit
  /-- MFINAL, 42_cmac.md rule R127. -/
  | mfinal
  /-- MABORT, 42_cmac.md rule R128. -/
  | mabort
  /-- RDOUT idx, 40_control_and_buffer_commands.md rule R77. -/
  | rdout (idx : BitVec 4)
  /-- RDSTAT, rule R78. -/
  | rdstat
  /-- RDERR, rule R79. -/
  | rderr
deriving DecidableEq, Repr

end Sys2Proof
end

