-- ==== Sys2Proof/WellFormed.lean ====
section
/-!
DEFINITION. Well-formedness. The types of `Instr` already bound every operand (a byte, a 4-bit index:
30_encoding.md rules R51, R59), so every `Instr` is well formed; what can be ill formed is a command
WORD. `opcodeTable` is rule R52's table, row by row, and a word is legal when it matches a row; the
three ways to match none are the clauses (a), (b), (c) of rule R54. The decoder of Decode.lean
is written from the fields of rule R50, not from this table, so that the two can be compared.
-/

namespace Sys2Proof

/-- The three formats of rule R51. -/
inductive Format where
  /-- No operand: `arg` must be `0x00`. -/
  | n
  /-- Byte operand: every `arg` is legal. -/
  | b
  /-- Index operand: `arg[7:4]` must be 0. -/
  | i
deriving DecidableEq, Repr

/-- One row of rule R52's table. -/
structure OpcodeRow where
  mnemonic : String
  op : Byte
  format : Format
  pattern : CommandWord
  mask : CommandWord
deriving DecidableEq, Repr

/-- The fourteen rows of rule R52, in the table's order. -/
def opcodeTable : List OpcodeRow := [
  ⟨"NOP",    0x00, .n, 0x0000, 0xFFFF⟩,
  ⟨"SRST",   0x01, .n, 0x0100, 0xFFFF⟩,
  ⟨"CLRK",   0x02, .n, 0x0200, 0xFFFF⟩,
  ⟨"CLRD",   0x03, .n, 0x0300, 0xFFFF⟩,
  ⟨"KPUSH",  0x10, .b, 0x1000, 0xFF00⟩,
  ⟨"DPUSH",  0x11, .b, 0x1100, 0xFF00⟩,
  ⟨"MPUSH",  0x12, .b, 0x1200, 0xFF00⟩,
  ⟨"ENC",    0x20, .n, 0x2000, 0xFFFF⟩,
  ⟨"MINIT",  0x21, .n, 0x2100, 0xFFFF⟩,
  ⟨"MFINAL", 0x22, .n, 0x2200, 0xFFFF⟩,
  ⟨"MABORT", 0x23, .n, 0x2300, 0xFFFF⟩,
  ⟨"RDOUT",  0x30, .i, 0x3000, 0xFFF0⟩,
  ⟨"RDSTAT", 0x31, .n, 0x3100, 0xFFFF⟩,
  ⟨"RDERR",  0x32, .n, 0x3200, 0xFFFF⟩]

/-- "a word `w` is the command of a row exactly when `(w AND mask) = match`" (rule R52). -/
def OpcodeRow.matchesWord (row : OpcodeRow) (w : CommandWord) : Bool :=
  w &&& row.mask == row.pattern

/-- A command word is legal when it matches a row of rule R52's table (rule R54). -/
def CommandWord.legal (w : CommandWord) : Bool :=
  opcodeTable.any fun row => row.matchesWord w

/-- The mnemonic of a command, as the table spells it (rule R52). -/
def Instr.mnemonic : Instr → String
  | .nop => "NOP"
  | .srst => "SRST"
  | .clrk => "CLRK"
  | .clrd => "CLRD"
  | .kpush _ => "KPUSH"
  | .dpush _ => "DPUSH"
  | .mpush _ => "MPUSH"
  | .enc => "ENC"
  | .minit => "MINIT"
  | .mfinal => "MFINAL"
  | .mabort => "MABORT"
  | .rdout _ => "RDOUT"
  | .rdstat => "RDSTAT"
  | .rderr => "RDERR"

/-- The operand bounds of rules R51 and R59: a data byte is 0..255, an index is 0..15. The operand
types admit nothing else, so this holds of every command. -/
def Instr.wf : Instr → Bool
  | .nop | .srst | .clrk | .clrd | .enc | .minit | .mfinal | .mabort | .rdstat | .rderr => true
  | .kpush data | .dpush data | .mpush data => data.toNat < 256
  | .rdout idx => idx.toNat < 16

end Sys2Proof
end

