-- ==== Sys2Proof/Decode.lean ====
section
/-!
DEFINITION. Decoding and encoding of command words (30_encoding.md rules R50 to R59). Decoding is total
on 16-bit words and does not look at the state (rule R55); a word that is no command is rejected by the
clause of rule R54 it falls under. Every command is exactly one word (rule R56).
-/

namespace Sys2Proof

/-- Why a word is illegal, by the clauses of rule R54. -/
inductive IllegalWord where
  /-- (a) `op` is not one of the 14 opcodes. -/
  | unknownOpcode
  /-- (b) the command has format N and `arg` is not `0x00`. -/
  | operandNotZero
  /-- (c) the command is `RDOUT` and `arg[7:4]` is not 0. -/
  | indexBitsNotZero
deriving DecidableEq, Repr

/-- The opcode field, bits 15:8 (rule R50). -/
def opField (w : CommandWord) : Byte := w.extractLsb' 8 8

/-- The operand byte, bits 7:0 (rule R50). -/
def argField (w : CommandWord) : Byte := w.extractLsb' 0 8

/-- Format N: legal when `arg = 0x00` (rule R51). -/
def decodeN (i : Instr) (arg : Byte) : Except IllegalWord Instr :=
  if arg = 0 then .ok i else .error .operandNotZero

/-- Format I: legal when `arg[7:4] = 0`; the index is `arg[3:0]` (rules R51, R59). -/
def decodeI (f : BitVec 4 → Instr) (arg : Byte) : Except IllegalWord Instr :=
  if arg.extractLsb' 4 4 = 0 then .ok (f (arg.extractLsb' 0 4)) else .error .indexBitsNotZero

/-- The command of an opcode and operand byte, by the opcode map of rule R52. -/
def decodeFields (op arg : Byte) : Except IllegalWord Instr :=
  if op = 0x00 then decodeN .nop arg
  else if op = 0x01 then decodeN .srst arg
  else if op = 0x02 then decodeN .clrk arg
  else if op = 0x03 then decodeN .clrd arg
  else if op = 0x10 then .ok (.kpush arg)
  else if op = 0x11 then .ok (.dpush arg)
  else if op = 0x12 then .ok (.mpush arg)
  else if op = 0x20 then decodeN .enc arg
  else if op = 0x21 then decodeN .minit arg
  else if op = 0x22 then decodeN .mfinal arg
  else if op = 0x23 then decodeN .mabort arg
  else if op = 0x30 then decodeI .rdout arg
  else if op = 0x31 then decodeN .rdstat arg
  else if op = 0x32 then decodeN .rderr arg
  else .error .unknownOpcode

/-- Decode one command word (rule R55). -/
def decode (w : CommandWord) : Except IllegalWord Instr :=
  decodeFields (opField w) (argField w)

/-- The word `op[15:8] | arg[7:0]` (rule R50). -/
def commandWord (op arg : Byte) : CommandWord := op ++ arg

/-- The word of a command (rules R51, R52): format N has `arg = 0x00`, format B its byte, format I
`0000 | idx[3:0]`. -/
def encode : Instr → CommandWord
  | .nop => commandWord 0x00 0x00
  | .srst => commandWord 0x01 0x00
  | .clrk => commandWord 0x02 0x00
  | .clrd => commandWord 0x03 0x00
  | .kpush data => commandWord 0x10 data
  | .dpush data => commandWord 0x11 data
  | .mpush data => commandWord 0x12 data
  | .enc => commandWord 0x20 0x00
  | .minit => commandWord 0x21 0x00
  | .mfinal => commandWord 0x22 0x00
  | .mabort => commandWord 0x23 0x00
  | .rdout idx => commandWord 0x30 ((0 : BitVec 4) ++ idx)
  | .rdstat => commandWord 0x31 0x00
  | .rderr => commandWord 0x32 0x00

/-- The command word whose bits are the low `nbits` bits of `w`, numbered as spec/opcode_table.json
numbers them: bit 0 is the least significant bit of the one word, and bits from `nbits` up are 0.
A command is one whole 16-bit word at the port (rule R50), so there are no bytes to order. -/
def tableWord (nbits w : Nat) : CommandWord := BitVec.ofNat 16 (w % 2 ^ nbits)

/-- The command the decoder reads from the bits `w`, or none where it rejects the word. -/
def decodeTableWord (nbits w : Nat) : Option Instr :=
  match decode (tableWord nbits w) with
  | .ok i => some i
  | .error _ => none

end Sys2Proof
end

