-- ==== Sys2Proof/Config.lean ====
section
/-!
DEFINITION. The sizes of the engine. Every size is fixed and the model takes no parameter
(00_scope.md rules R6 and R7); the spec leaves no value free, so no opaque constant stands here.
-/

namespace Sys2Proof.Config

/-- KEY_BYTES of rule R6. -/
def keyBytes : Nat := 16

/-- BLOCK_BYTES of rule R6. -/
def blockBytes : Nat := 16

/-- TAG_BYTES of rule R6: the full CMAC tag. -/
def tagBytes : Nat := 16

/-- How many tag bytes a LoRaWAN MIC keeps (rule R6, row TAG_BYTES; 45_host_sequences.md rule R147). -/
def micBytes : Nat := 4

/-- NR of rule R6: the rounds of AES-128. -/
def rounds : Nat := 10

/-- The number of words of the expanded key (41_aes128_encrypt.md rule R98). -/
def keyWords : Nat := 44

/-- The length of a device address in bytes (60_exceptions.md rule R181). -/
def addressBytes : Nat := 4

/-- The highest block index of the payload cipher (45_host_sequences.md rule R150). -/
def maxBlockIndex : Nat := 255

/-- The longest frame without MIC (45_host_sequences.md rules R153 and R155). -/
def maxFrameBytes : Nat := 255

end Sys2Proof.Config
end

