-- ==== Sys2Proof/Machine/Aes.lean ====
section
/-!
DEFINITION. The block function `AES128` (41_aes128_encrypt.md rules R90 to R100): the field
GF(2^8), the S-box, the four transformations in the flat form of rule R90, the key expansion and the
ten rounds. The row and column form of the state array stands beside the flat form. The text is the
spec's from general knowledge (93_implementation_defined.md GK1; UNVERIFIED there, log entry 9).
-/

namespace Sys2Proof.Machine

/-- `a xor b` on two blocks, byte by byte (00_scope.md rule R8). -/
def blockXor (a b : Block) : Block := Vector.ofFn fun i => a[i] ^^^ b[i]

/-- Multiplication by `x`, that is by `0x02`, in GF(2^8) (rule R91). -/
def xtime (b : Byte) : Byte := (b <<< 1) ^^^ (if b.msb then 0x1b else 0x00)

/-- `xtime` applied `j` times (rule R91). -/
def xtimes : Nat → Byte → Byte
  | 0, a => a
  | j + 1, a => xtime (xtimes j a)

/-- "xor over every bit j set in b of xtime applied j times to a" (rule R91). -/
def mul (a b : Byte) : Byte :=
  (List.range 8).foldl (fun acc j => if b.getLsbD j then acc ^^^ xtimes j a else acc) 0

/-- `mul(a, 0x02)` (rule R91). -/
def mulBy2 (a : Byte) : Byte := xtime a

/-- `mul(a, 0x03)` (rule R91). -/
def mulBy3 (a : Byte) : Byte := xtime a ^^^ a

/-- The 256 byte values in rising order. -/
def byteValues : List Byte := (List.range 256).map (BitVec.ofNat 8)

/-- `inv(a)`: the byte with `mul(a, inv(a)) = 0x01`; `inv(0x00) = 0x00` (rule R91). DEDUCED: found by
search, as rule R92 says its table was made (safe; log entry 10). -/
def inv (a : Byte) : Byte := (byteValues.find? fun b => mul a b == 0x01).getD 0x00

/-- The affine map `A(v)` of rule R92. -/
def affine (v : Byte) : Byte :=
  v ^^^ v.rotateLeft 1 ^^^ v.rotateLeft 2 ^^^ v.rotateLeft 3 ^^^ v.rotateLeft 4 ^^^ 0x63

/-- The S-box table of rule R92, "the normative form": row = high hex digit, column = low hex digit. -/
def sboxTable : Vector (Vector Byte 16) 16 := #v[
  #v[0x63, 0x7c, 0x77, 0x7b, 0xf2, 0x6b, 0x6f, 0xc5, 0x30, 0x01, 0x67, 0x2b, 0xfe, 0xd7, 0xab, 0x76],
  #v[0xca, 0x82, 0xc9, 0x7d, 0xfa, 0x59, 0x47, 0xf0, 0xad, 0xd4, 0xa2, 0xaf, 0x9c, 0xa4, 0x72, 0xc0],
  #v[0xb7, 0xfd, 0x93, 0x26, 0x36, 0x3f, 0xf7, 0xcc, 0x34, 0xa5, 0xe5, 0xf1, 0x71, 0xd8, 0x31, 0x15],
  #v[0x04, 0xc7, 0x23, 0xc3, 0x18, 0x96, 0x05, 0x9a, 0x07, 0x12, 0x80, 0xe2, 0xeb, 0x27, 0xb2, 0x75],
  #v[0x09, 0x83, 0x2c, 0x1a, 0x1b, 0x6e, 0x5a, 0xa0, 0x52, 0x3b, 0xd6, 0xb3, 0x29, 0xe3, 0x2f, 0x84],
  #v[0x53, 0xd1, 0x00, 0xed, 0x20, 0xfc, 0xb1, 0x5b, 0x6a, 0xcb, 0xbe, 0x39, 0x4a, 0x4c, 0x58, 0xcf],
  #v[0xd0, 0xef, 0xaa, 0xfb, 0x43, 0x4d, 0x33, 0x85, 0x45, 0xf9, 0x02, 0x7f, 0x50, 0x3c, 0x9f, 0xa8],
  #v[0x51, 0xa3, 0x40, 0x8f, 0x92, 0x9d, 0x38, 0xf5, 0xbc, 0xb6, 0xda, 0x21, 0x10, 0xff, 0xf3, 0xd2],
  #v[0xcd, 0x0c, 0x13, 0xec, 0x5f, 0x97, 0x44, 0x17, 0xc4, 0xa7, 0x7e, 0x3d, 0x64, 0x5d, 0x19, 0x73],
  #v[0x60, 0x81, 0x4f, 0xdc, 0x22, 0x2a, 0x90, 0x88, 0x46, 0xee, 0xb8, 0x14, 0xde, 0x5e, 0x0b, 0xdb],
  #v[0xe0, 0x32, 0x3a, 0x0a, 0x49, 0x06, 0x24, 0x5c, 0xc2, 0xd3, 0xac, 0x62, 0x91, 0x95, 0xe4, 0x79],
  #v[0xe7, 0xc8, 0x37, 0x6d, 0x8d, 0xd5, 0x4e, 0xa9, 0x6c, 0x56, 0xf4, 0xea, 0x65, 0x7a, 0xae, 0x08],
  #v[0xba, 0x78, 0x25, 0x2e, 0x1c, 0xa6, 0xb4, 0xc6, 0xe8, 0xdd, 0x74, 0x1f, 0x4b, 0xbd, 0x8b, 0x8a],
  #v[0x70, 0x3e, 0xb5, 0x66, 0x48, 0x03, 0xf6, 0x0e, 0x61, 0x35, 0x57, 0xb9, 0x86, 0xc1, 0x1d, 0x9e],
  #v[0xe1, 0xf8, 0x98, 0x11, 0x69, 0xd9, 0x8e, 0x94, 0x9b, 0x1e, 0x87, 0xe9, 0xce, 0x55, 0x28, 0xdf],
  #v[0x8c, 0xa1, 0x89, 0x0d, 0xbf, 0xe6, 0x42, 0x68, 0x41, 0x99, 0x2d, 0x0f, 0xb0, 0x54, 0xbb, 0x16]]

/-- `SBOX[a]` (rule R92). -/
def sbox (a : Byte) : Byte := (sboxTable[a.toNat / 16]'(by omega))[a.toNat % 16]'(by omega)

/-- `SubBytes`, flat: `t'[i] = SBOX[t[i]]` (rule R93). -/
def subBytes (t : Block) : Block := Vector.ofFn fun i => sbox t[i]

/-- `ShiftRows`, flat: `t'[r + 4c] = t[r + 4((c + r) mod 4)]` (rule R94). -/
def shiftRows (t : Block) : Block :=
  Vector.ofFn fun i => t[i.val % 4 + 4 * ((i.val / 4 + i.val % 4) % 4)]'(by omega)

/-- Row `r` of the mixed column `(a0, a1, a2, a3)` (rule R95). -/
def mixRow (a0 a1 a2 a3 : Byte) : Nat → Byte
  | 0 => mulBy2 a0 ^^^ mulBy3 a1 ^^^ a2 ^^^ a3
  | 1 => a0 ^^^ mulBy2 a1 ^^^ mulBy3 a2 ^^^ a3
  | 2 => a0 ^^^ a1 ^^^ mulBy2 a2 ^^^ mulBy3 a3
  | _ => mulBy3 a0 ^^^ a1 ^^^ a2 ^^^ mulBy2 a3

/-- `MixColumns`, flat: column `c` is bytes `t[4c..4c+3]` (rule R95). -/
def mixColumns (t : Block) : Block := Vector.ofFn fun i =>
  mixRow (t[4 * (i.val / 4)]'(by omega)) (t[4 * (i.val / 4) + 1]'(by omega))
    (t[4 * (i.val / 4) + 2]'(by omega)) (t[4 * (i.val / 4) + 3]'(by omega)) (i.val % 4)

/-- `AddRoundKey` (rule R96). -/
def addRoundKey (t rk : Block) : Block := blockXor t rk

/-- Word `xor` is byte by byte (rule R97). -/
def wordXor (a b : AesWord) : AesWord :=
  ⟨a.a0 ^^^ b.a0, a.a1 ^^^ b.a1, a.a2 ^^^ b.a2, a.a3 ^^^ b.a3⟩

/-- `RotWord` (rule R97). -/
def rotWord (w : AesWord) : AesWord := ⟨w.a1, w.a2, w.a3, w.a0⟩

/-- `SubWord` (rule R97). -/
def subWord (w : AesWord) : AesWord := ⟨sbox w.a0, sbox w.a1, sbox w.a2, sbox w.a3⟩

/-- `rc[1] = 0x01`, `rc[j+1] = xtime(rc[j])` (rule R97); `rc[0]` is never used. -/
def rc : Nat → Byte
  | 0 => 0x00
  | 1 => 0x01
  | j + 2 => xtime (rc (j + 1))

/-- `Rcon[j] = (rc[j], 0x00, 0x00, 0x00)` (rule R97). -/
def rcon (j : Nat) : AesWord := ⟨rc j, 0x00, 0x00, 0x00⟩

/-- Word `i` of a list of key words; the rules ask only for words that are there. -/
def wordAt (ws : List AesWord) (i : Nat) : AesWord := ws.getD i ⟨0, 0, 0, 0⟩

/-- Word `i` of the key, `(k[4i], k[4i+1], k[4i+2], k[4i+3])` (rule R98). -/
def keyWord (k : Block) (i : Fin 4) : AesWord :=
  ⟨k[4 * i.val], k[4 * i.val + 1], k[4 * i.val + 2], k[4 * i.val + 3]⟩

/-- `w[i]` from the words before it, for `i` in 4..43 (rule R98). -/
def nextKeyWord (ws : List AesWord) (i : Nat) : AesWord :=
  let last := wordAt ws (i - 1)
  let temp := if i % 4 = 0 then wordXor (subWord (rotWord last)) (rcon (i / 4)) else last
  wordXor (wordAt ws (i - 4)) temp

/-- `KeyExpansion(k)`: the words `w[0..43]` (rule R98). -/
def keyExpansion (k : Block) : List AesWord :=
  (List.range' 4 (Config.keyWords - 4)).foldl (fun ws i => ws ++ [nextKeyWord ws i])
    [keyWord k 0, keyWord k 1, keyWord k 2, keyWord k 3]

/-- Byte `j` of a word, `j` in 0..3. -/
def wordByte (w : AesWord) : Nat → Byte
  | 0 => w.a0
  | 1 => w.a1
  | 2 => w.a2
  | _ => w.a3

/-- Round key `r`: `w[4r] || w[4r+1] || w[4r+2] || w[4r+3]` (rule R99). -/
def roundKey (ws : List AesWord) (r : Nat) : Block :=
  Vector.ofFn fun i => wordByte (wordAt ws (4 * r + i.val / 4)) (i.val % 4)

/-- One of the rounds 1..9: SubBytes, ShiftRows, MixColumns, AddRoundKey (rule R100). -/
def fullRound (ws : List AesWord) (t : Block) (r : Nat) : Block :=
  addRoundKey (mixColumns (shiftRows (subBytes t))) (roundKey ws r)

/-- The state after AddRoundKey with `rk_0` and the rounds 1..n (rule R100). -/
def roundsUpTo (ws : List AesWord) (b : Block) (n : Nat) : Block :=
  (List.range' 1 n).foldl (fullRound ws) (addRoundKey b (roundKey ws 0))

/-- `AES128(k, b)`: nine full rounds and a tenth without MixColumns (rule R100). -/
def aes128 (k b : Block) : Block :=
  let ws := keyExpansion k
  addRoundKey (shiftRows (subBytes (roundsUpTo ws b (Config.rounds - 1)))) (roundKey ws Config.rounds)

/-- The state array `s[r][c]`, row `r` and column `c` in 0..3 (rule R90). -/
abbrev StateArray := Vector (Vector Byte 4) 4

/-- Load a block column by column: `s[r][c] = in[r + 4c]` (rule R90). -/
def loadArray (b : Block) : StateArray :=
  Vector.ofFn fun r => Vector.ofFn fun c => b[r.val + 4 * c.val]'(by omega)

/-- Unload: `out[r + 4c] = s[r][c]` (rule R90). -/
def unloadArray (s : StateArray) : Block :=
  Vector.ofFn fun i => (s[i.val % 4]'(by omega))[i.val / 4]'(by omega)

/-- `SubBytes` on the array: `s'[r][c] = SBOX[s[r][c]]` (rule R93). -/
def subBytesArray (s : StateArray) : StateArray :=
  Vector.ofFn fun r => Vector.ofFn fun c => sbox s[r][c]

/-- `ShiftRows` on the array: `s'[r][c] = s[r][(c + r) mod 4]` (rule R94). -/
def shiftRowsArray (s : StateArray) : StateArray :=
  Vector.ofFn fun r => Vector.ofFn fun c => s[r][(c.val + r.val) % 4]'(by omega)

/-- `MixColumns` on the array, with `mul` as rule R95 writes it. -/
def mixColumnsArray (s : StateArray) : StateArray :=
  Vector.ofFn fun r => Vector.ofFn fun c =>
    match r with
    | 0 => mul s[0][c] 0x02 ^^^ mul s[1][c] 0x03 ^^^ s[2][c] ^^^ s[3][c]
    | 1 => s[0][c] ^^^ mul s[1][c] 0x02 ^^^ mul s[2][c] 0x03 ^^^ s[3][c]
    | 2 => s[0][c] ^^^ s[1][c] ^^^ mul s[2][c] 0x02 ^^^ mul s[3][c] 0x03
    | 3 => mul s[0][c] 0x03 ^^^ s[1][c] ^^^ s[2][c] ^^^ mul s[3][c] 0x02

end Sys2Proof.Machine
end

