-- ==== Sys2Proof/Machine/Cmac.lean ====
section
/-!
DEFINITION. CMAC-AES-128 as a function of a key and a byte sequence (42_cmac.md rules R120 to R123):
doubling, the subkeys, the padding of the last block and the chain. The text is the spec's from
general knowledge (93_implementation_defined.md GK2; UNVERIFIED there, log entry 9).
-/

namespace Sys2Proof.Machine

/-- The block of a byte list: byte `i` is byte `i` of the list, `0x00` beyond its end. DESIGN CHOICE for a list
over 16 bytes, which no rule asks for: the rest is dropped (log entry 19). -/
def blockOfBytes (bs : List Byte) : Block := Vector.ofFn fun i => bs.getD i.val 0x00

/-- The block read as a number, byte 0 most significant (rule R120). -/
def blockToNat (v : Block) : Nat := v.toList.foldl (fun n b => 256 * n + b.toNat) 0

/-- The block of a 128-bit number, byte 0 most significant (rule R120): also how a bare hex string of
32 digits reads as a block (00_scope.md rule R8). -/
def blockOfNat (n : Nat) : Block := Vector.ofFn fun i => BitVec.ofNat 8 (n >>> (8 * (15 - i.val)))

/-- `msb(v)`: bit 7 of `v[0]` (rule R120). -/
def blockMsb (v : Block) : Bool := v[0].msb

/-- `v << 1`, byte by byte (rule R120). -/
def blockShl1 (v : Block) : Block :=
  Vector.ofFn fun i => (v[i] <<< 1) ||| (if h : i.val < 15 then v[i.val + 1] >>> 7 else 0x00)

/-- `R128`: fifteen bytes `0x00` and one byte `0x87` (rule R121). -/
def doublingConstant : Block := Vector.ofFn fun i => if i.val = 15 then 0x87 else 0x00

/-- `DBL(v)` (rule R121). -/
def dbl (v : Block) : Block :=
  if blockMsb v then blockXor (blockShl1 v) doublingConstant else blockShl1 v

/-- `L = AES128(k, 0^16)` (rule R122). -/
def subkeyBase (k : Block) : Block := aes128 k Block.zero

/-- `K1 = DBL(L)` (rule R122). -/
def subkey1 (k : Block) : Block := dbl (subkeyBase k)

/-- `K2 = DBL(K1)` (rule R122). -/
def subkey2 (k : Block) : Block := dbl (subkey1 k)

/-- `n = ceil(len / 16)`, and 1 for the empty message (rule R123). -/
def cmacBlocks (m : List Byte) : Nat := if m.length = 0 then 1 else (m.length + 15) / 16

/-- Block `M_i` of the message, `i` from 1 (rule R123): bytes `16(i-1)` to `16i - 1`. -/
def messageBlock (m : List Byte) (i : Nat) : Block :=
  blockOfBytes ((m.drop (16 * (i - 1))).take 16)

/-- `X_n`: the chain value after the blocks `M_1..M_n` (10_state.md rule R14): `X_0 = 0^16`,
`X_j = AES128(k, X_(j-1) xor M_j)`. -/
def chainValue (k : Block) (m : List Byte) : Nat → Block
  | 0 => Block.zero
  | j + 1 => aes128 k (blockXor (chainValue k m j) (messageBlock m (j + 1)))

/-- `M_last` (rule R123): a complete last block with `K1`, any other padded with `0x80` and zeros, with
`K2`. -/
def lastBlock (k : Block) (m : List Byte) : Block :=
  let last := m.drop (16 * (cmacBlocks m - 1))
  if m.length ≠ 0 ∧ m.length % 16 = 0 then blockXor (blockOfBytes last) (subkey1 k)
  else blockXor (blockOfBytes (last ++ [0x80])) (subkey2 k)

/-- `CMAC(k, m)`, the 16-byte tag (rule R123). -/
def cmac (k : Block) (m : List Byte) : Block :=
  aes128 k (blockXor (chainValue k m (cmacBlocks m - 1)) (lastBlock k m))

end Sys2Proof.Machine
end

