-- ==== Sys2Proof/Machine/State.lean ====
section
/-!
DEFINITION. The architectural state (10_state.md rules R10 to R30), the ports as a list of cycles, the
errors of 60_exceptions.md rule R170, and the state right after reset (rule R28).
-/

namespace Sys2Proof.Machine

/-- "The complete architectural state of one engine instance is the following eleven items and nothing
else" (rule R10). -/
structure Engine where
  /-- KEY, the cipher key (rule R11). -/
  key : Block
  /-- IBUF, the one input buffer (rule R12). -/
  ibuf : Block
  /-- DOUT, the last result (rule R13). -/
  dout : Block
  /-- X, the CMAC chain value (rule R14). -/
  x : Block
  /-- K1, the first CMAC subkey (rule R15). -/
  k1 : Block
  /-- K2, the second CMAC subkey (rule R15). -/
  k2 : Block
  /-- KCNT, values 0..17 (rules R10, R16). -/
  kcnt : Fin 18
  /-- ICNT, values 0..17 (rules R10, R17). -/
  icnt : Fin 18
  /-- OVALID (rule R18). -/
  ovalid : Bool
  /-- MACT (rule R19). -/
  mact : Bool
  /-- ERR, the code of the first error, `0x00` for none (rule R20). -/
  err : Byte
deriving DecidableEq, Repr

/-- What the host drives on the input ports in one step (rules R27 and R30). -/
structure PortCycle where
  /-- `rst_n`: active low; `false` asserts hardware reset. -/
  rstN : Bool
  /-- `cmd_valid`: the host offers a command word. -/
  cmdValid : Bool
  /-- `cmd`: the command word offered. -/
  cmd : CommandWord
deriving DecidableEq, Repr

/-- The engine and its ports. DESIGN CHOICE (safe; log entries 1 and 2): what rule R30 makes the
argument and the result of `step` stands in the state, as the list of port cycles still to come and
the list of responses given. -/
structure State extends Engine where
  /-- The cycles the host will drive on `rst_n`, `cmd_valid`, `cmd`, next one first. -/
  inputs : List PortCycle
  /-- The response words given on `rsp`, oldest first (rule R30: one per issued command, in issue
  order). -/
  responses : List ResponseWord
deriving DecidableEq, Repr

/-- The five errors of rule R170. -/
inductive EngineError where
  /-- 0x01: `ENC` with `ICNT` not 16 (rule R171). -/
  | invalidBlockLength
  /-- 0x02: `ENC` or `MINIT` with `KCNT` not 16 (rule R172). -/
  | invalidKeyLength
  /-- 0x03: a word that matches no row of the opcode table (rule R174). -/
  | illegalCommand
  /-- 0x04: a command not allowed in the current mode (rule R173). -/
  | sequenceError
  /-- 0x05: `RDOUT` with `OVALID = 0` (rule R175). -/
  | noOutput
deriving DecidableEq, Repr

/-- The reasons a step of the model stops. The engine's own errors are not among them: they are taken,
as next states (rule R176). -/
inductive Fault where
  /-- Raised by MPUSH and MFINAL in MAC mode with `ICNT = 17`, where the rules would write byte 17 of
  the 16-byte `IBUF`, which does not exist. Rule R24 item 6 excludes such a state after reset and after
  every command. Safe: the model stops where the spec says nothing (log entry 6). -/
  | bufferIndexOutOfRange
deriving DecidableEq, Repr

/-- The reasons a command has no meaning. -/
inductive Refusal where
  /-- The command `mnemonic` has no meaning in the model. Raised by no arm of `exec`: every command
  has its meaning. Safe: the model would stop where the engine goes on. -/
  | notModelled (mnemonic : String)
deriving DecidableEq, Repr

/-- What one step of the model answers. -/
abbrev Result := Host.Outcome State Fault Refusal

/-- The engine after hardware reset and after `SRST` (rule R28). -/
def Engine.reset : Engine where
  key := Block.zero
  ibuf := Block.zero
  dout := Block.zero
  x := Block.zero
  k1 := Block.zero
  k2 := Block.zero
  kcnt := 0
  icnt := 0
  ovalid := false
  mact := false
  err := 0x00

/-- The machine right after reset: the engine as rule R28 says, nothing offered at the port yet, no
response given yet. -/
def State.reset : State where
  toEngine := Engine.reset
  inputs := []
  responses := []

end Sys2Proof.Machine
end

