-- ==== Sys2Proof/Machine/Flags.lean ====
section
/-!
DEFINITION. What the engine computes from its state for the host to read: the error codes
(60_exceptions.md rule R170), the `STATUS` byte (10_state.md rule R21), the mode (rule R29) and the
response word (30_encoding.md rule R53).
-/

namespace Sys2Proof.Machine

/-- The code of an error in `ERR` (rule R170). -/
def EngineError.code : EngineError → Byte
  | .invalidBlockLength => 0x01
  | .invalidKeyLength => 0x02
  | .illegalCommand => 0x03
  | .sequenceError => 0x04
  | .noOutput => 0x05

/-- "While `ERR != 0` the engine is faulted" (rule R20). -/
def Engine.faulted (e : Engine) : Bool := e.err != 0x00

/-- A bit as a byte with that bit at position `n`. -/
def flagBit (b : Bool) (n : Nat) : Byte := if b then 1#8 <<< n else 0x00

/-- `STATUS`, computed and not stored (rule R21): bit 0 KRDY, 1 IRDY, 2 OVALID, 3 MACT, 7 FAULT, the
others 0. -/
def Engine.status (e : Engine) : Byte :=
  flagBit (e.kcnt.val == 16) 0 ||| flagBit (e.icnt.val == 16) 1 ||| flagBit e.ovalid 2 |||
    flagBit e.mact 3 ||| flagBit e.faulted 7

/-- The three modes of rule R29. -/
inductive Mode where
  | idle
  | mac
  | faulted
deriving DecidableEq, Repr

/-- The mode, a function of `ERR` and `MACT` (rule R29). -/
def Engine.mode (e : Engine) : Mode :=
  if e.faulted then .faulted else if e.mact then .mac else .idle

/-- The response word (rule R53): bits 15:9 zero, bit 8 `fault`, bits 7:0 `rdata`. -/
def responseWord (fault : Bool) (rdata : Byte) : ResponseWord :=
  (0 : BitVec 7) ++ (BitVec.ofBool fault ++ rdata)

/-- `rsp[8]`: the engine is faulted after the command (rule R53). -/
def responseFault (rsp : ResponseWord) : Bool := rsp.getLsbD 8

/-- `rsp[7:0]`: the byte read (rule R53). -/
def responseData (rsp : ResponseWord) : Byte := rsp.extractLsb' 0 8

end Sys2Proof.Machine
end

