-- ==== Sys2Proof/Machine/Operands.lean ====
section
/-!
DEFINITION. The operand forms: the byte a push command carries, stored at the index a counter gives, and
the 4-bit index of `RDOUT` (30_encoding.md rules R51 and R59; 40_control_and_buffer_commands.md rule R83).
Operands are read from the command word as they stand: nothing is extended, scaled or shifted.
-/

namespace Sys2Proof.Machine

/-- `REG[i] <- d`; a block has no byte 16 or above, so such an index writes nothing (the rules that
use it test the index first). -/
def putByte (b : Block) (i : Nat) (d : Byte) : Block := if h : i < 16 then b.set i d else b

/-- A counter one higher, saturating at 17: "they never wrap to 0 and never exceed 17" (rule R81). -/
def countUp (c : Fin 18) : Fin 18 := if h : c.val < 16 then ⟨c.val + 1, by omega⟩ else 17

/-- The register and its counter after one more byte is pushed (rules R74 and R76): below 16 the byte is
stored at the counter's index; from 16 on the byte is discarded and the counter reads 17. -/
def pushByte (reg : Block) (count : Fin 18) (d : Byte) : Block × Fin 18 :=
  if count.val < 16 then (putByte reg count.val d, countUp count) else (reg, 17)

/-- `DOUT[idx]`, `idx` in 0..15 (rule R77). -/
def Engine.resultByte (e : Engine) (idx : BitVec 4) : Byte := e.dout[idx.toNat]'(by omega)

end Sys2Proof.Machine
end

