-- ==== Sys2Proof/Machine/Ops.lean ====
section
/-!
DEFINITION. The operations every command is made of: answering, fault entry (`raise`, the one way an
exception is taken: 60_exceptions.md rule R176), the way back from it (reset: rule R180), being ignored
while faulted (rule R178), and the tests of rule R177 in the order the rule gives them.
-/

namespace Sys2Proof.Machine

/-- The command ends with the engine state `e` and the read byte `rdata`; its response reflects the
state after it (20_memory.md rule R44; 40_control_and_buffer_commands.md rule R70). -/
def State.answer (s : State) (e : Engine) (rdata : Byte) : State :=
  { s with toEngine := e, responses := s.responses ++ [responseWord e.faulted rdata] }

/-- Fault entry (rule R176): everything is zeroised, `ERR` records the cause, MAC mode is left. -/
def Engine.faultEntry (e : Engine) (c : EngineError) : Engine :=
  { e with
    key := Block.zero, ibuf := Block.zero, dout := Block.zero
    x := Block.zero, k1 := Block.zero, k2 := Block.zero
    kcnt := 0, icnt := 0, ovalid := false, mact := false
    err := c.code }

/-- `raise E` (rule R176): fault entry, `rdata <- 0x00`, and the command ends. -/
def State.raise (s : State) (c : EngineError) : State := s.answer (s.toEngine.faultEntry c) 0x00

/-- A word issued while faulted that does not execute: no state change, `rdata = 0x00` (rule R178). -/
def State.ignore (s : State) : State := s.answer s.toEngine 0x00

/-- The only exit from the faulted mode by command (rules R72 and R180): every item at its reset value,
with the response `0x0000`. -/
def State.softReset (s : State) : State := s.answer Engine.reset 0x00

/-- Hardware reset (70_reset_and_hazards.md rule R190): the reset state, and no response is owed. -/
def State.hardwareReset (s : State) : State := { s with toEngine := Engine.reset }

/-- What happens to an illegal word (rules R54, R174, R178): ignored while faulted, otherwise
`IllegalCommand`. -/
def State.illegalWord (s : State) : State :=
  if s.faulted then s.ignore else s.raise .illegalCommand

/-- In which modes a command executes (rule R173). -/
inductive ModeRule where
  | idleOnly
  | macOnly
  | either
deriving DecidableEq, Repr

/-- Whether a command of that rule passes the mode test, given `MACT` (rule R173). -/
def ModeRule.allows : ModeRule → Bool → Bool
  | .idleOnly, mact => !mact
  | .macOnly, mact => mact
  | .either, _ => true

/-- Tests 1 and 3 of rule R177 for a decoded command: faulted, then the mode. -/
def inModes (rule : ModeRule) (body : State → Result) (s : State) : Result :=
  if s.faulted then .next s.ignore
  else if rule.allows s.mact then body s
  else .next (s.raise .sequenceError)

/-- Test 4 of rule R177: the key is exactly 16 bytes (rule R172). -/
def requireKey (body : State → Result) (s : State) : Result :=
  if s.kcnt.val = 16 then body s else .next (s.raise .invalidKeyLength)

/-- Test 5 of rule R177: the block is exactly 16 bytes (rule R171). -/
def requireBlock (body : State → Result) (s : State) : Result :=
  if s.icnt.val = 16 then body s else .next (s.raise .invalidBlockLength)

/-- Test 6 of rule R177: a result is present (rule R175). -/
def requireOutput (body : State → Result) (s : State) : Result :=
  if s.ovalid then body s else .next (s.raise .noOutput)

end Sys2Proof.Machine
end

