-- ==== Sys2Proof/Machine/Control.lean ====
section
/-!
DEFINITION. The control commands NOP, SRST, CLRK, CLRD (40_control_and_buffer_commands.md rules R71, R72,
R75, R73).
-/

namespace Sys2Proof.Machine

/-- NOP (rule R71): nothing, in either mode. -/
def execNop (s : State) : Result :=
  inModes .either (fun s => .next (s.answer s.toEngine 0x00)) s

/-- SRST (rule R72): exactly the reset values, in every mode, faulted included. -/
def execSrst (s : State) : Result := .next s.softReset

/-- `KEY <- 0^16; KCNT <- 0` (rule R75). -/
def Engine.clearKey (e : Engine) : Engine := { e with key := Block.zero, kcnt := 0 }

/-- CLRK (rule R75). -/
def execClrk (s : State) : Result :=
  inModes .idleOnly (fun s => .next (s.answer s.toEngine.clearKey 0x00)) s

/-- `IBUF <- 0^16; ICNT <- 0` (rule R73). -/
def Engine.clearInput (e : Engine) : Engine := { e with ibuf := Block.zero, icnt := 0 }

/-- CLRD (rule R73). -/
def execClrd (s : State) : Result :=
  inModes .idleOnly (fun s => .next (s.answer s.toEngine.clearInput 0x00)) s

end Sys2Proof.Machine
end

