-- ==== Sys2Proof/Machine/Push.lean ====
section
/-!
DEFINITION. The byte pushes KPUSH, DPUSH (40_control_and_buffer_commands.md rules R74, R76) and MPUSH
(42_cmac.md rule R126).
-/

namespace Sys2Proof.Machine

/-- One key byte into `KEY` at index `KCNT` (rule R74). -/
def Engine.pushKey (e : Engine) (data : Byte) : Engine :=
  { e with key := (pushByte e.key e.kcnt data).1, kcnt := (pushByte e.key e.kcnt data).2 }

/-- KPUSH data (rule R74). -/
def execKpush (data : Byte) (s : State) : Result :=
  inModes .idleOnly (fun s => .next (s.answer (s.toEngine.pushKey data) 0x00)) s

/-- One block byte into `IBUF` at index `ICNT` (rule R76). -/
def Engine.pushInput (e : Engine) (data : Byte) : Engine :=
  { e with ibuf := (pushByte e.ibuf e.icnt data).1, icnt := (pushByte e.ibuf e.icnt data).2 }

/-- DPUSH data (rule R76). -/
def execDpush (data : Byte) (s : State) : Result :=
  inModes .idleOnly (fun s => .next (s.answer (s.toEngine.pushInput data) 0x00)) s

/-- Chain the full buffer into `X` and empty it: "it was not the last block after all" (rule R126). -/
def Engine.absorb (e : Engine) : Engine :=
  { e.clearInput with x := aes128 e.key (blockXor e.x e.ibuf) }

/-- The first part of MPUSH (rule R126): a full buffer is absorbed, any other is left. -/
def Engine.absorbIfFull (e : Engine) : Engine := if e.icnt.val = 16 then e.absorb else e

/-- `IBUF[ICNT] <- data; ICNT <- ICNT + 1` (rule R126). -/
def Engine.storeMessage (e : Engine) (data : Byte) : Engine :=
  { e with ibuf := putByte e.ibuf e.icnt.val data, icnt := countUp e.icnt }

/-- The second part of MPUSH (rule R126): the byte is stored where `ICNT` says. With `ICNT = 17` there is no such byte: the
model stops (log entry 6). -/
def appendMessage (data : Byte) (s : State) (e : Engine) : Result :=
  if e.icnt.val < 16 then
    .next (s.answer (e.storeMessage data) 0x00)
  else .fault .bufferIndexOutOfRange

/-- MPUSH data (rule R126). -/
def execMpush (data : Byte) (s : State) : Result :=
  inModes .macOnly (fun s => appendMessage data s s.toEngine.absorbIfFull) s

end Sys2Proof.Machine
end

