-- ==== Sys2Proof/Machine/Compute.lean ====
section
/-!
DEFINITION. The compute commands ENC (41_aes128_encrypt.md rule R101), MINIT, MFINAL and MABORT
(42_cmac.md rules R125, R127, R128).
-/

namespace Sys2Proof.Machine

/-- The effect of ENC (rule R101): `DOUT <- AES128(KEY, IBUF)`, `OVALID <- 1`, the buffer emptied. -/
def Engine.encrypt (e : Engine) : Engine :=
  { e.clearInput with dout := aes128 e.key e.ibuf, ovalid := true }

/-- ENC (rule R101). -/
def execEnc (s : State) : Result :=
  inModes .idleOnly
    (requireKey (requireBlock fun s => .next (s.answer s.toEngine.encrypt 0x00))) s

/-- The effect of MINIT (rule R125). -/
def Engine.openMac (e : Engine) : Engine :=
  { e.clearInput with
    k1 := subkey1 e.key, k2 := subkey2 e.key, x := Block.zero
    dout := Block.zero, ovalid := false, mact := true }

/-- MINIT (rule R125). -/
def execMinit (s : State) : Result :=
  inModes .idleOnly (requireKey fun s => .next (s.answer s.toEngine.openMac 0x00)) s

/-- The effect of MABORT (rule R128): the open CMAC is dropped. -/
def Engine.dropMac (e : Engine) : Engine :=
  { e.clearInput with x := Block.zero, k1 := Block.zero, k2 := Block.zero, mact := false }

/-- `M_last` of MFINAL (rule R127): a complete block with `K1`, any other padded with `K2`. -/
def Engine.finalBlock (e : Engine) : Block :=
  if e.icnt.val = 16 then blockXor e.ibuf e.k1
  else blockXor (putByte e.ibuf e.icnt.val 0x80) e.k2

/-- The effect of MFINAL (rule R127): the tag, and the CMAC closed. -/
def Engine.closeMac (e : Engine) : Engine :=
  { e.dropMac with dout := aes128 e.key (blockXor e.x e.finalBlock), ovalid := true }

/-- MFINAL (rule R127). With `ICNT = 17` the padding byte has no place: the model stops (log entry 6). -/
def execMfinal (s : State) : Result :=
  inModes .macOnly
    (fun s => if s.icnt.val ≤ 16 then .next (s.answer s.toEngine.closeMac 0x00)
      else .fault .bufferIndexOutOfRange) s

/-- MABORT (rule R128): legal in either mode. -/
def execMabort (s : State) : Result :=
  inModes .either (fun s => .next (s.answer s.toEngine.dropMac 0x00)) s

end Sys2Proof.Machine
end

