-- ==== Sys2Proof/Machine/Read.lean ====
section
/-!
DEFINITION. The reads RDOUT, RDSTAT, RDERR (40_control_and_buffer_commands.md rules R77, R78, R79).
RDSTAT and RDERR execute while faulted too (60_exceptions.md rule R178).
-/

namespace Sys2Proof.Machine

/-- RDOUT idx (rule R77). -/
def execRdout (idx : BitVec 4) (s : State) : Result :=
  inModes .either
    (requireOutput fun s => .next (s.answer s.toEngine (s.toEngine.resultByte idx))) s

/-- RDSTAT (rule R78): in every mode, faulted included. -/
def execRdstat (s : State) : Result := .next (s.answer s.toEngine s.toEngine.status)

/-- RDERR (rule R79): in every mode, faulted included; `ERR` is not cleared. -/
def execRderr (s : State) : Result := .next (s.answer s.toEngine s.err)

end Sys2Proof.Machine
end

