-- ==== Sys2Proof/Machine/Dispatch.lean ====
section
/-!
DEFINITION. `exec`: one arm per command (40_control_and_buffer_commands.md rule R70, "execute d", with
the tests of 60_exceptions.md rule R177 inside each meaning).
-/

namespace Sys2Proof.Machine

def exec (i : Instr) (s : State) : Host.Outcome State Fault Refusal :=
  match i with
  | .nop => Sys2Proof.Machine.execNop s
  | .srst => Sys2Proof.Machine.execSrst s
  | .clrk => Sys2Proof.Machine.execClrk s
  | .clrd => Sys2Proof.Machine.execClrd s
  | .kpush data => Sys2Proof.Machine.execKpush data s
  | .dpush data => Sys2Proof.Machine.execDpush data s
  | .mpush data => Sys2Proof.Machine.execMpush data s
  | .enc => Sys2Proof.Machine.execEnc s
  | .minit => Sys2Proof.Machine.execMinit s
  | .mfinal => Sys2Proof.Machine.execMfinal s
  | .mabort => Sys2Proof.Machine.execMabort s
  | .rdout idx => Sys2Proof.Machine.execRdout idx s
  | .rdstat => Sys2Proof.Machine.execRdstat s
  | .rderr => Sys2Proof.Machine.execRderr s

end Sys2Proof.Machine
end

