-- ==== Sys2Proof/Machine/Port.lean ====
section
/-!
DEFINITION. The command port (10_state.md rule R30): one issued word is decoded and executed or treated
as illegal (40_control_and_buffer_commands.md rule R70); one cycle of the port resets, issues a command,
or does nothing.
-/

namespace Sys2Proof.Machine

/-- One issued command word (rule R70): decoded without regard to the state, then executed. -/
def command (w : CommandWord) (s : State) : Result :=
  match decode w with
  | .ok i => exec i s
  | .error _ => .next s.illegalWord

/-- `cmd_ready` between commands (rules R30 and R190): 1 unless reset is asserted. -/
def PortCycle.cmdReady (p : PortCycle) : Bool := p.rstN

/-- "a command is issued in a cycle where both are 1" (rule R30). -/
def PortCycle.issues (p : PortCycle) : Bool := p.cmdValid && p.cmdReady

/-- One cycle of the port: asserted reset overrides everything (rule R190); an issued command executes
atomically (20_memory.md rule R44); otherwise the engine is idle and keeps all state (60_exceptions.md
rule R183). -/
def portCycle (p : PortCycle) (s : State) : Result :=
  if p.rstN = false then .next s.hardwareReset
  else if p.issues then command p.cmd s
  else .next s

end Sys2Proof.Machine
end

