-- ==== Sys2Proof/Machine/Step.lean ====
section
/-!
DEFINITION. One step of the machine: the next cycle the host drives on the port. With no cycle to come
nothing is offered and the engine keeps all state (60_exceptions.md rule R183; log entry 3).
-/

namespace Sys2Proof.Machine

/-- One step (10_state.md rule R30; log entry 1). -/
def step (s : State) : Host.Outcome State Fault Refusal :=
  match s.inputs with
  | [] => .next s
  | p :: rest => portCycle p { s with inputs := rest }

/-- `s` with the command word of the bits `w` offered in the next cycle, so that the very next step
issues exactly it (log entry 3). -/
def State.withFetchWord (s : State) (nbits w : Nat) : State :=
  { s with inputs := ⟨true, true, tableWord nbits w⟩ :: s.inputs }

end Sys2Proof.Machine
end

