-- ==== Sys2Proof/Machine/HostSeq.lean ====
section
/-!
DEFINITION. The host procedures of 45_host_sequences.md as functions: the byte utilities (rules R141,
R142), the macros and command lists (rules R143 to R145, R149, R159), the Payload Cipher (rules R148 to
R151), the MIC Generator (rules R147, R152, R153) and the Frame Assembler (rules R154 to R158). They are
procedures of the host and not engine hardware (rule R140); in scope by 00_scope.md rule R4. The drivers
that issue these command lists to the engine stand in Machine/Driver.lean.
-/

namespace Sys2Proof.Machine

/-- The errors a host procedure fails with (60_exceptions.md rule R181; rule R146 for the last). -/
inductive HostError where
  /-- A key that is not 16 bytes (rules R143, R155). -/
  | invalidKeyLength
  /-- A block that is not 16 bytes (rule R144). -/
  | invalidBlockLength
  /-- A device address that is not 4 bytes (rule R155). -/
  | invalidAddressLength
  /-- More than 255 cipher blocks (rules R150, R155). -/
  | payloadTooLarge
  /-- A frame without MIC over 255 bytes (rules R153, R155). -/
  | frameTooLarge
  /-- The engine answered with `rsp[8] = 1`; the code is what `RDERR` gave (rule R146). -/
  | engineError (code : Byte)
deriving DecidableEq, Repr

/-- The direction of a frame (rules R148, R158). -/
inductive Direction where
  | uplink
  | downlink
deriving DecidableEq, Repr

/-- Byte 5 of both blocks: 0 for uplink, 1 for downlink (rule R148). -/
def Direction.code : Direction → Byte
  | .uplink => 0x00
  | .downlink => 0x01

/-- The value of a hexadecimal digit. DESIGN CHOICE: both letter cases are digits (91_not_in_source.md N9
leaves the case open; log entry 11). -/
def hexDigit (c : Char) : Option Nat :=
  if 48 ≤ c.toNat ∧ c.toNat ≤ 57 then some (c.toNat - 48)
  else if 65 ≤ c.toNat ∧ c.toNat ≤ 70 then some (c.toNat - 55)
  else if 97 ≤ c.toNat ∧ c.toNat ≤ 102 then some (c.toNat - 87)
  else none

/-- Pairs of digits, high nibble first (rule R141); an odd length or another character is no input of
the procedure (93_implementation_defined.md U13). -/
def hexPairs : List Char → Option (List Byte)
  | [] => some []
  | [_] => none
  | hi :: lo :: rest =>
    match hexDigit hi, hexDigit lo, hexPairs rest with
    | some h, some l, some bs => some (BitVec.ofNat 8 (16 * h + l) :: bs)
    | _, _, _ => none

/-- `hexToBytes(s)` (rule R141). -/
def hexToBytes (s : String) : Option (List Byte) := hexPairs s.toList

/-- `intToLE(v, n)`: byte `i` is `(v >> 8i) AND 0xff` (rule R142). DESIGN CHOICE: the rule defines it for
`v < 2^(8n)`; a larger value is masked to its low `n` bytes here (log entry 19). -/
def intToLE (v n : Nat) : List Byte := (List.range n).map fun i => BitVec.ofNat 8 (v >>> (8 * i))

/-- The read commands `RDOUT 0` to `RDOUT n-1`, `n` at most 16. -/
def readCommands (n : Nat) : List Instr := (List.range n).map fun i => .rdout (BitVec.ofNat 4 i)

/-- `LOADKEY k` (rule R143). -/
def loadKeyCommands (k : List Byte) : List Instr := .clrk :: k.map .kpush

/-- `ENCRYPT_BLOCK k, b` (rule R144). -/
def encryptBlockCommands (k b : List Byte) : List Instr :=
  loadKeyCommands k ++ .clrd :: b.map .dpush ++ .enc :: readCommands 16

/-- The commands of a CMAC up to the tag, without the reads (42_cmac.md rule R124). -/
def cmacStream (k m : List Byte) : List Instr :=
  loadKeyCommands k ++ .minit :: m.map .mpush ++ [.mfinal]

/-- `CMAC k, m` (rule R145). -/
def cmacCommands (k m : List Byte) : List Instr := cmacStream k m ++ readCommands 16

/-- The pseudo-instructions of 30_encoding.md rule R58. -/
inductive HostMacro where
  | loadKey (k : List Byte)
  | encryptBlock (k b : List Byte)
  | cmac (k m : List Byte)
deriving DecidableEq, Repr

/-- The command list a macro expands to (rules R143 to R145). -/
def HostMacro.expand : HostMacro → List Instr
  | .loadKey k => loadKeyCommands k
  | .encryptBlock k b => encryptBlockCommands k b
  | .cmac k m => cmacCommands k m

/-- The lengths a macro is defined for (rules R143 to R145). -/
def HostMacro.wf : HostMacro → Bool
  | .loadKey k => k.length == Config.keyBytes
  | .encryptBlock k b => k.length == Config.keyBytes && b.length == Config.blockBytes
  | .cmac k _ => k.length == Config.keyBytes

/-- The device address of a byte list of length 4 (rule R155 tests the length). DESIGN CHOICE: bytes past
the end of a shorter list are `0x00`, those past the fourth are dropped (log entry 19). -/
def addressOf (bs : List Byte) : Vector Byte 4 := Vector.ofFn fun i => bs.getD i.val 0x00

/-- What CounterBlock and AuthBlock share (rules R148, R152): a first byte, four zeros, the direction, the
address reversed, the frame counter little-endian, a zero, and a last byte. -/
def contextBlock (first : Byte) (addr : Vector Byte 4) (fcnt : BitVec 32) (dir : Direction)
    (last : Byte) : Block :=
  blockOfBytes ([first, 0x00, 0x00, 0x00, 0x00, dir.code, addr[3], addr[2], addr[1], addr[0]]
    ++ intToLE fcnt.toNat 4 ++ [0x00, last])

/-- CounterBlock `A_i` (rule R148). DESIGN CHOICE: the rule defines it for `i` in 1..255; byte 15 of any
other index is its low 8 bits here (log entry 19). -/
def counterBlock (addr : Vector Byte 4) (fcnt : BitVec 32) (dir : Direction) (i : Nat) : Block :=
  contextBlock 0x01 addr fcnt dir (BitVec.ofNat 8 i)

/-- AuthBlock `B0` of a frame of `len` bytes (rule R152): "truncated to 8 bits", which by rule R153
never changes a value. -/
def authBlock (addr : Vector Byte 4) (fcnt : BitVec 32) (dir : Direction) (len : Nat) : Block :=
  contextBlock 0x49 addr fcnt dir (BitVec.ofNat 8 len)

/-- `ceil(N / 16)` (rule R149). -/
def payloadBlocks (n : Nat) : Nat := (n + 15) / 16

/-- The keystream of `nblk` chunks; chunk `j` from 0 uses block index `j + 1` (rule R149; conflict C1). -/
def keystream (key : Block) (addr : Vector Byte 4) (fcnt : BitVec 32) (dir : Direction) (nblk : Nat) :
    List Byte :=
  (List.range nblk).flatMap fun j => (aes128 key (counterBlock addr fcnt dir (j + 1))).toList

/-- `xor` of two byte sequences, as long as the shorter (rule R149: "only the first
`min(16, remaining_bytes)` bytes of the keystream are applied"). -/
def xorBytes (a b : List Byte) : List Byte := List.zipWith (fun x y => x ^^^ y) a b

/-- `encryptPayload` (rules R149, R150). -/
def encryptPayload (pt : List Byte) (key : Block) (addr : Vector Byte 4) (fcnt : BitVec 32)
    (dir : Direction) : Except HostError (List Byte) :=
  if payloadBlocks pt.length > Config.maxBlockIndex then .error .payloadTooLarge
  else .ok (xorBytes pt (keystream key addr fcnt dir (payloadBlocks pt.length)))

/-- `T[0..3]` (rule R147). -/
def micOf (tag : Block) : List Byte := tag.toList.take Config.micBytes

/-- The message a MIC is computed over: `B0 || frame` (rule R153). -/
def micMessage (frame : List Byte) (addr : Vector Byte 4) (fcnt : BitVec 32) (dir : Direction) :
    List Byte :=
  (authBlock addr fcnt dir frame.length).toList ++ frame

/-- `computeMIC` (rule R153). -/
def computeMic (frame : List Byte) (key : Block) (addr : Vector Byte 4) (fcnt : BitVec 32)
    (dir : Direction) : Except HostError (List Byte) :=
  if frame.length > Config.maxFrameBytes then .error .frameTooLarge
  else .ok (micOf (cmac key (micMessage frame addr fcnt dir)))

/-- The nine header bytes (rules R154, R156, R157). -/
def frameHeader (addr : Vector Byte 4) (fcnt : BitVec 32) (fport : Byte) : List Byte :=
  ([0x40, addr[3], addr[2], addr[1], addr[0], 0x00] : List Byte)
    ++ intToLE (fcnt.toNat % 65536) 2 ++ [fport]

/-- Validation, in the order of rule R155; `none` where every test passes. -/
def validateFrame (addr pt nwkKey appKey : List Byte) : Option HostError :=
  if nwkKey.length ≠ Config.keyBytes ∨ appKey.length ≠ Config.keyBytes then some .invalidKeyLength
  else if addr.length ≠ Config.addressBytes then some .invalidAddressLength
  else if payloadBlocks pt.length > Config.maxBlockIndex then some .payloadTooLarge
  else if 9 + pt.length > Config.maxFrameBytes then some .frameTooLarge
  else none

/-- `buildUplinkFrame` (rule R154): the payload under the application key, the MIC under the network key
over the header and the encrypted payload. -/
def buildUplinkFrame (addr : List Byte) (fcnt : BitVec 32) (fport : Byte)
    (pt nwkKey appKey : List Byte) : Except HostError (List Byte) :=
  match validateFrame addr pt nwkKey appKey with
  | some e => .error e
  | none =>
    match encryptPayload pt (blockOfBytes appKey) (addressOf addr) fcnt .uplink with
    | .error e => .error e
    | .ok enc =>
      let body := frameHeader (addressOf addr) fcnt fport ++ enc
      match computeMic body (blockOfBytes nwkKey) (addressOf addr) fcnt .uplink with
      | .error e => .error e
      | .ok mic => .ok (body ++ mic)

/-- The commands of chunk `j` of a payload of `n` bytes (rules R149, R159). -/
def chunkCommands (addr : Vector Byte 4) (fcnt : BitVec 32) (dir : Direction) (n j : Nat) :
    List Instr :=
  (counterBlock addr fcnt dir (j + 1)).toList.map .dpush
    ++ .enc :: readCommands (min 16 (n - 16 * j))

/-- The commands that read the keystream of a payload of `n` bytes (rules R149, R159). -/
def payloadCommands (key : List Byte) (addr : Vector Byte 4) (fcnt : BitVec 32) (dir : Direction)
    (n : Nat) : List Instr :=
  loadKeyCommands key ++ (List.range (payloadBlocks n)).flatMap (chunkCommands addr fcnt dir n)

/-- The commands of a MIC: the CMAC of `B0 || frame` and four reads (rules R145, R147, R159). -/
def micCommands (key : List Byte) (addr : Vector Byte 4) (fcnt : BitVec 32) (dir : Direction)
    (frame : List Byte) : List Instr :=
  cmacStream key (micMessage frame addr fcnt dir) ++ readCommands Config.micBytes

/-- The whole command sequence of one frame whose body is `body` (rule R159). -/
def frameCommands (addr : Vector Byte 4) (fcnt : BitVec 32) (n : Nat) (body nwkKey appKey : List Byte) :
    List Instr :=
  payloadCommands appKey addr fcnt .uplink n ++ micCommands nwkKey addr fcnt .uplink body ++ [.srst]

end Sys2Proof.Machine
end

