-- ==== Sys2Proof/Machine/Driver.lean ====
section
/-!
DEFINITION. The host procedures run on the engine: a command list is issued word by word
(20_memory.md rule R44: "a fold of `step` over the command list"), the bytes of the `RDOUT` responses
are collected, and every response's `rsp[8]` is tested (45_host_sequences.md rule R146).
-/

namespace Sys2Proof.Machine

/-- Issue command words one after another (rule R44); the first stop ends it. -/
def issueAll : List CommandWord → State → Result
  | [], s => .next s
  | w :: ws, s =>
    match command w s with
    | .next t => issueAll ws t
    | .fault f => .fault f
    | .refused r => .refused r

/-- The response of the command just executed. -/
def lastResponse (s : State) : ResponseWord := s.responses.getLastD 0

/-- What a host procedure gives back: the machine it leaves and the bytes, or the error it fails with. -/
structure HostReturn where
  machine : State
  result : Except HostError (List Byte)
deriving Repr

/-- The outcome of a host procedure. -/
abbrev HostResult := Host.Outcome HostReturn Fault Refusal

/-- The procedure fails with `e` and issues no further command (rule R140). -/
def hostFail (e : HostError) (s : State) : HostResult := .next ⟨s, .error e⟩

/-- After a response with `rsp[8] = 1` (rule R146): the bytes read are discarded, `RDERR` reads the cause,
`SRST` ends the fault, the error is reported. -/
def hostRecover (s : State) : HostResult :=
  match command (encode .rderr) s with
  | .next t =>
    match command (encode .srst) t with
    | .next u => hostFail (.engineError (responseData (lastResponse t))) u
    | .fault f => .fault f
    | .refused r => .refused r
  | .fault f => .fault f
  | .refused r => .refused r

/-- The byte a host keeps of a command's response: that of `RDOUT`, none of any other. -/
def keptBytes (i : Instr) (s : State) : List Byte :=
  match i with
  | .rdout _ => [responseData (lastResponse s)]
  | .nop | .srst | .clrk | .clrd | .kpush _ | .dpush _ | .mpush _ | .enc | .minit | .mfinal | .mabort
  | .rdstat | .rderr => []

/-- Run a command sequence from the bytes `kept` so far. DESIGN CHOICE: the host tests `rsp[8]` after
every command, as rule R146 lets it (log entry 12). -/
def hostSequence : List Instr → List Byte → State → HostResult
  | [], kept, s => .next ⟨s, .ok kept⟩
  | i :: is, kept, s =>
    match command (encode i) s with
    | .next t =>
      if responseFault (lastResponse t) then hostRecover t
      else hostSequence is (kept ++ keptBytes i t) t
    | .fault f => .fault f
    | .refused r => .refused r

/-- Go on with the machine and the bytes of a procedure that did not fail. -/
def hostThen (r : HostResult) (f : State → List Byte → HostResult) : HostResult :=
  match r with
  | .next ⟨s, .ok bs⟩ => f s bs
  | .next ⟨s, .error e⟩ => .next ⟨s, .error e⟩
  | .fault e => .fault e
  | .refused e => .refused e

/-- The host's test of a key's length: a key that is not 16 bytes fails with `InvalidKeyLength` before any
command (rules R143, R155). -/
def requireKeyBytes (k : List Byte) (body : State → HostResult) (s : State) : HostResult :=
  if k.length = Config.keyBytes then body s else hostFail .invalidKeyLength s

/-- `LOADKEY k` on the engine (rule R143). -/
def hostLoadKey (k : List Byte) (s : State) : HostResult :=
  requireKeyBytes k (hostSequence (loadKeyCommands k) []) s

/-- `ENCRYPT_BLOCK k, b -> c` on the engine (rule R144). DESIGN CHOICE: where the key and the block both have a
wrong length the key is reported; rules R143 and R144 each name an error and no rule orders the two at the
host (log entry 18). -/
def hostEncryptBlock (k b : List Byte) (s : State) : HostResult :=
  requireKeyBytes k (fun s =>
    if b.length ≠ Config.blockBytes then hostFail .invalidBlockLength s
    else hostSequence (encryptBlockCommands k b) [] s) s

/-- `CMAC k, m -> T` on the engine (rule R145). -/
def hostCmac (k m : List Byte) (s : State) : HostResult :=
  requireKeyBytes k (hostSequence (cmacCommands k m) []) s

/-- A pseudo-instruction of 30_encoding.md rule R58 on the engine. -/
def hostMacro : HostMacro → State → HostResult
  | .loadKey k => hostLoadKey k
  | .encryptBlock k b => hostEncryptBlock k b
  | .cmac k m => hostCmac k m

/-- `encryptPayload` on the engine (rules R149, R150). DESIGN CHOICE: run alone, with a wrong key length and too
long a payload, it reports the key (log entry 18). -/
def hostEncryptPayload (pt key : List Byte) (addr : Vector Byte 4) (fcnt : BitVec 32) (dir : Direction)
    (s : State) : HostResult :=
  requireKeyBytes key (fun s =>
    if payloadBlocks pt.length > Config.maxBlockIndex then hostFail .payloadTooLarge s
    else hostThen (hostSequence (payloadCommands key addr fcnt dir pt.length) [] s)
      fun t ks => .next ⟨t, .ok (xorBytes pt ks)⟩) s

/-- `computeMIC` on the engine (rules R147, R153). DESIGN CHOICE: run alone, with a wrong key length and too long
a frame, it reports the key (log entry 18). -/
def hostComputeMic (frame key : List Byte) (addr : Vector Byte 4) (fcnt : BitVec 32) (dir : Direction)
    (s : State) : HostResult :=
  requireKeyBytes key (fun s =>
    if frame.length > Config.maxFrameBytes then hostFail .frameTooLarge s
    else hostSequence (micCommands key addr fcnt dir frame) [] s) s

/-- `buildUplinkFrame` on the engine (rules R154, R159): validation before any command, the two stages,
and a closing `SRST` (rule R160). -/
def hostBuildUplinkFrame (addr : List Byte) (fcnt : BitVec 32) (fport : Byte)
    (pt nwkKey appKey : List Byte) (s : State) : HostResult :=
  match validateFrame addr pt nwkKey appKey with
  | some e => hostFail e s
  | none =>
    hostThen (hostEncryptPayload pt appKey (addressOf addr) fcnt .uplink s) fun t enc =>
      let body := frameHeader (addressOf addr) fcnt fport ++ enc
      hostThen (hostComputeMic body nwkKey (addressOf addr) fcnt .uplink t) fun u mic =>
        hostSequence [.srst] (body ++ mic) u

end Sys2Proof.Machine
end

