-- ==== Sys2Proof/Safety.lean ====
section
/-!
DEFINITION. What counts as a good engine state: the invariants of 10_state.md rule R24; which mode each
command needs (60_exceptions.md rule R173); and what two engines have in common when the host cannot tell
them apart by one command (10_state.md rules R11, R25).
-/

namespace Sys2Proof.Machine

/-- The invariants of rule R24, item by item; "`KCNT <= 17`; `ICNT <= 17`" of item 7 is in the
counters' type. -/
structure Engine.Inv (e : Engine) : Prop where
  /-- Item 1: a faulted engine holds nothing. -/
  faultedZero : e.err ≠ 0x00 → e.key = Block.zero ∧ e.ibuf = Block.zero ∧ e.dout = Block.zero ∧
    e.x = Block.zero ∧ e.k1 = Block.zero ∧ e.k2 = Block.zero ∧ e.kcnt.val = 0 ∧ e.icnt.val = 0 ∧
    e.ovalid = false ∧ e.mact = false
  /-- Item 2. -/
  idleZero : e.mact = false → e.x = Block.zero ∧ e.k1 = Block.zero ∧ e.k2 = Block.zero
  /-- Item 3. -/
  keyTail : ∀ i : Fin 16, min e.kcnt.val 16 ≤ i.val → e.key[i] = 0x00
  /-- Item 4. -/
  ibufTail : ∀ i : Fin 16, min e.icnt.val 16 ≤ i.val → e.ibuf[i] = 0x00
  /-- Item 5. -/
  noResultZero : e.ovalid = false → e.dout = Block.zero
  /-- Item 6. -/
  macOpen : e.mact = true → e.kcnt.val = 16 ∧ e.ovalid = false ∧ e.icnt.val ≤ 16 ∧
    e.k1 = dbl (aes128 e.key Block.zero) ∧ e.k2 = dbl e.k1
  /-- Item 7. -/
  errRange : e.err.toNat ≤ 5

/-- The mode each command needs, row by row of rule R173's table. -/
def modeRuleOf : Instr → ModeRule
  | .nop | .srst | .mabort | .rdstat | .rderr => .either
  | .rdout _ => .either
  | .clrk | .clrd | .kpush _ | .dpush _ | .enc | .minit => .idleOnly
  | .mpush _ | .mfinal => .macOnly

/-! The "written by" column of 10_state.md rule R10, less reset and fault entry: the commands that may
change each register when they raise no error. -/

/-- KEY and KCNT: KPUSH, CLRK, SRST. -/
def writesKey : Instr → Bool
  | .kpush _ | .clrk | .srst => true
  | .nop | .clrd | .dpush _ | .mpush _ | .enc | .minit | .mfinal | .mabort | .rdout _ | .rdstat
  | .rderr => false

/-- IBUF and ICNT: DPUSH, CLRD, ENC, MINIT, MPUSH, MFINAL, MABORT, SRST. -/
def writesInput : Instr → Bool
  | .dpush _ | .clrd | .enc | .minit | .mpush _ | .mfinal | .mabort | .srst => true
  | .nop | .clrk | .kpush _ | .rdout _ | .rdstat | .rderr => false

/-- DOUT and OVALID: ENC, MINIT, MFINAL, SRST. -/
def writesOutput : Instr → Bool
  | .enc | .minit | .mfinal | .srst => true
  | .nop | .clrk | .clrd | .kpush _ | .dpush _ | .mpush _ | .mabort | .rdout _ | .rdstat
  | .rderr => false

/-- X: MINIT, MPUSH, MFINAL, MABORT, SRST. -/
def writesChain : Instr → Bool
  | .minit | .mpush _ | .mfinal | .mabort | .srst => true
  | .nop | .clrk | .clrd | .kpush _ | .dpush _ | .enc | .rdout _ | .rdstat | .rderr => false

/-- K1, K2 and MACT: MINIT, MFINAL, MABORT, SRST. -/
def writesSubkeys : Instr → Bool
  | .minit | .mfinal | .mabort | .srst => true
  | .nop | .clrk | .clrd | .kpush _ | .dpush _ | .mpush _ | .enc | .rdout _ | .rdstat
  | .rderr => false

/-- Two engines that agree on everything but the write-only registers `KEY`, `IBUF`, `X`, `K1`, `K2`, to
which no command gives a read path (60_exceptions.md rule R182). -/
def Engine.SameReadable (a b : Engine) : Prop :=
  a.dout = b.dout ∧ a.kcnt = b.kcnt ∧ a.icnt = b.icnt ∧ a.ovalid = b.ovalid ∧ a.mact = b.mact ∧
    a.err = b.err

end Sys2Proof.Machine
end

