-- ==== Sys2Proof/Certificates/Slice0/Obligations.lean ====
section
/-!
DEFINITION. The statements about the engine, from the numbered rules of spec/. A result is written as
the whole next state: every field not named in it is unchanged, so the statement is its own frame.
`s.raise c` is fault entry; `FaultingCommandZeroises` says what it leaves.
-/

open Sys2Proof Sys2Proof.Machine

/-! ## Encoding -/

/-- Words written out from 30_encoding.md rule R51's bit patterns (the words of rule R57 and of
95_test_vectors.md 4.1 among them) decode to the commands they stand for. -/
def Obligations.SampleWordsDecode : Prop :=
  decode 0b0000000000000000 = .ok .nop ∧ decode 0b0000000100000000 = .ok .srst ∧
  decode 0b0000001000000000 = .ok .clrk ∧ decode 0b0000001100000000 = .ok .clrd ∧
  decode 0b0001000000101011 = .ok (.kpush 0x2b) ∧ decode 0b0001000100000000 = .ok (.dpush 0x00) ∧
  decode 0b0001001010000000 = .ok (.mpush 0x80) ∧ decode 0b0010000000000000 = .ok .enc ∧
  decode 0b0010000100000000 = .ok .minit ∧ decode 0b0010001000000000 = .ok .mfinal ∧
  decode 0b0010001100000000 = .ok .mabort ∧ decode 0b0011000000000011 = .ok (.rdout 3) ∧
  decode 0b0011000000001111 = .ok (.rdout 15) ∧ decode 0b0011000100000000 = .ok .rdstat ∧
  decode 0b0011001000000000 = .ok .rderr

/-- Decoding the word of a well-formed command gives the command back, with every operand at every
value its encoding admits (rules R51, R52, R55). -/
def Obligations.EncodedCommandsDecodeBack : Prop :=
  ∀ i : Instr, i.wf = true → decode (encode i) = .ok i

/-- A word that decodes to a command is the one word of that command: no bit of it is dropped (rules R51,
R52). -/
def Obligations.DecodedWordsEncodeBack : Prop :=
  ∀ (w : CommandWord) (i : Instr), decode w = .ok i → encode i = w

/-- Rule R52: the decoder gives a word the command of a row of the opcode table exactly when
`(w AND mask) = match`, and 794 of the 65536 words are legal. -/
def Obligations.DecoderFollowsOpcodeTable : Prop :=
  (∀ (w : CommandWord), ∀ row ∈ opcodeTable,
    w &&& row.mask = row.pattern ↔ ∃ i, decode w = .ok i ∧ i.mnemonic = row.mnemonic) ∧
  (List.range 65536).countP (fun n => CommandWord.legal (BitVec.ofNat 16 n)) = 794

/-- Rule R54's three clauses: (a) an unknown opcode, (b) format N with `arg != 0x00`, (c) `RDOUT` with
`arg[7:4] != 0`; each is the reason the decoder gives, for exactly those words. -/
def Obligations.IllegalWordsByClause : Prop :=
  ∀ w : CommandWord,
    (decode w = .error .unknownOpcode ↔ ∀ row ∈ opcodeTable, opField w ≠ row.op) ∧
    (decode w = .error .operandNotZero ↔
      (∃ row ∈ opcodeTable, row.format = .n ∧ opField w = row.op) ∧ argField w ≠ 0x00) ∧
    (decode w = .error .indexBitsNotZero ↔
      opField w = 0x30 ∧ (argField w).extractLsb' 4 4 ≠ 0)

/-! ## The step, the port, reset -/

/-- When the word offered at the port decodes to `i`, the step is `exec i` on the state with that port
cycle consumed (rules R30, R55, R70; the list of cycles is the model's, log entry 1). -/
def Obligations.StepRunsDecodedCommand : Prop :=
  ∀ (s : State) (rest : List PortCycle) (w : CommandWord) (i : Instr),
    s.inputs = ⟨true, true, w⟩ :: rest → decode w = .ok i →
      step s = exec i { s with inputs := rest }

/-- Rule R174: a word that decodes to `illegal` raises `IllegalCommand` (0x03) when not faulted, in
either mode; it is ignored while faulted. -/
def Obligations.StepTakesIllegalCommand : Prop :=
  ∀ (s : State) (rest : List PortCycle) (w : CommandWord) (why : IllegalWord),
    s.inputs = ⟨true, true, w⟩ :: rest → decode w = .error why →
      (s.err = 0x00 → step s = .next (State.raise { s with inputs := rest } .illegalCommand)) ∧
      (s.err ≠ 0x00 →
        step s = .next { s with inputs := rest, responses := s.responses ++ [0x0100] })

/-- Rule R190: asserted reset overrides everything, whatever is offered in that cycle: the engine is in
the reset state, no command is accepted, no response is given. -/
def Obligations.HardwareResetOverrides : Prop :=
  ∀ (s : State) (p : PortCycle) (rest : List PortCycle), s.inputs = p :: rest → p.rstN = false →
    step s = .next ⟨⟨Block.zero, Block.zero, Block.zero, Block.zero, Block.zero, Block.zero,
        0, 0, false, false, 0x00⟩, rest, s.responses⟩ ∧
      p.cmdReady = false ∧ p.issues = false

/-- With no command offered the engine keeps all state (rule R183: "between commands the engine is idle and
keeps all state"); the empty list of cycles is the model's way to say so (log entry 3). -/
def Obligations.IdlePortKeepsState : Prop :=
  (∀ s : State, s.inputs = [] → step s = .next s) ∧
  (∀ (s : State) (w : CommandWord) (rest : List PortCycle), s.inputs = ⟨true, false, w⟩ :: rest →
    step s = .next { s with inputs := rest })

/-- Rule R28: every piece of state at its reset value, `STATUS` 0, the same engine after `SRST`, and a
zero key that is not usable. -/
def Obligations.ResetValues : Prop :=
  State.reset.toEngine = ⟨Block.zero, Block.zero, Block.zero, Block.zero, Block.zero, Block.zero,
    0, 0, false, false, 0x00⟩ ∧
  (∀ i : Fin 16, Block.zero[i] = 0x00) ∧
  State.reset.status = 0x00 ∧
  (∀ s : State, ∃ t, exec .srst s = .next t ∧ t.toEngine = State.reset.toEngine) ∧
  (∀ s : State, s.toEngine = State.reset.toEngine →
    exec .enc s = .next (s.raise .invalidKeyLength) ∧
    exec .minit s = .next (s.raise .invalidKeyLength))

/-- Rule R53: every command answers one word; bits 15:9 are 0, bit 8 says whether `ERR != 0` after the
command, bits 7:0 are the byte a read returns and `0x00` in every other case. A faulting command
answers `0x0100`; while faulted `RDSTAT` answers `0x0180` and `RDERR` `0x0100 + ERR`. -/
def Obligations.EveryCommandAnsweredOnce : Prop :=
  (∀ (s t : State) (w : CommandWord), command w s = .next t →
    t.inputs = s.inputs ∧
    ∃ rsp : ResponseWord, t.responses = s.responses ++ [rsp] ∧
      rsp.extractLsb' 9 7 = 0 ∧
      (rsp.getLsbD 8 = true ↔ t.err ≠ 0x00) ∧
      rsp.extractLsb' 0 8 =
        match decode w with
        | .ok (.rdout idx) =>
          if s.err = 0x00 ∧ s.ovalid = true then s.toEngine.resultByte idx else 0x00
        | .ok .rdstat => s.status
        | .ok .rderr => s.err
        | _ => 0x00) ∧
  (∀ (s t : State) (w : CommandWord), command w s = .next t → s.err = 0x00 → t.err ≠ 0x00 →
    t.responses = s.responses ++ [0x0100]) ∧
  (∀ s : State, s.toEngine.Inv → s.err ≠ 0x00 →
    command 0x3100 s = .next { s with responses := s.responses ++ [0x0180] } ∧
    command 0x3200 s =
      .next { s with responses := s.responses ++ [0x0100 + s.err.setWidth 16] })

/-! ## Invariants -/

/-- The invariants of rule R24 hold after reset. -/
def Obligations.ResetMeetsInvariant : Prop :=
  State.reset.toEngine.Inv

/-- The invariants of rule R24 hold after every step from a state that meets them: every command, every
illegal word, hardware reset, and an idle port. -/
def Obligations.StepKeepsInvariant : Prop :=
  ∀ s t : State, s.toEngine.Inv → step s = .next t → t.toEngine.Inv

/-- From a state that meets rule R24 every step answers a next state: `step` is total there (rule R70), no
fault or refusal of the model is met. -/
def Obligations.InvariantStatesAlwaysStep : Prop :=
  ∀ s : State, s.toEngine.Inv → ∃ t, step s = .next t ∧ t.toEngine.Inv

/-! ## The fourteen commands -/

/-- Rule R71: NOP changes nothing; it answers `0x0000`, or `0x0100` while faulted; a NOP opcode with
`arg != 0` is an illegal word. -/
def Obligations.NopChangesNothing : Prop :=
  encode .nop = 0x0000 ∧
  (∀ s : State, exec .nop s =
    .next { s with responses := s.responses ++ [if s.err = 0x00 then 0x0000 else 0x0100] }) ∧
  (∀ arg : Byte, arg ≠ 0x00 → decode (commandWord 0x00 arg) = .error .operandNotZero)

/-- Rule R72: SRST gives exactly the reset values in every mode, faulted included, and answers `0x0000`;
a following RDERR answers `0x0000`. -/
def Obligations.SrstRestoresReset : Prop :=
  encode .srst = 0x0100 ∧
  ∀ s : State, ∃ t, exec .srst s = .next t ∧
    t = ⟨⟨Block.zero, Block.zero, Block.zero, Block.zero, Block.zero, Block.zero,
      0, 0, false, false, 0x00⟩, s.inputs, s.responses ++ [0x0000]⟩ ∧
    exec .rderr t = .next { t with responses := t.responses ++ [0x0000] }

/-- Rule R73: CLRD in IDLE mode clears `IBUF` and `ICNT` and nothing else; in MAC mode it raises
`SequenceError`. -/
def Obligations.ClrdClearsInput : Prop :=
  encode .clrd = 0x0300 ∧
  ∀ s : State, s.err = 0x00 →
    (s.mact = false → exec .clrd s =
      .next { s with ibuf := Block.zero, icnt := 0, responses := s.responses ++ [0x0000] }) ∧
    (s.mact = true → exec .clrd s = .next (s.raise .sequenceError))

/-- Rule R74: KPUSH in IDLE mode stores the byte at index `KCNT` below 16 and counts it; from 16 on the byte
is discarded and `KCNT` reads 17; in MAC mode it raises `SequenceError`. -/
def Obligations.KpushStoresKeyByte : Prop :=
  ∀ d : Byte, encode (.kpush d) = 0x1000 + d.setWidth 16 ∧
  ∀ s : State, s.err = 0x00 →
    (s.mact = false → ∀ h : s.kcnt.val < 16, exec (.kpush d) s =
      .next { s with
        key := s.key.set s.kcnt.val d h, kcnt := s.kcnt + 1,
        responses := s.responses ++ [0x0000] }) ∧
    (s.mact = false → 16 ≤ s.kcnt.val → exec (.kpush d) s =
      .next { s with kcnt := 17, responses := s.responses ++ [0x0000] }) ∧
    (s.mact = true → exec (.kpush d) s = .next (s.raise .sequenceError))

/-- Rule R75: CLRK in IDLE mode clears `KEY` and `KCNT` and nothing else; in MAC mode it raises
`SequenceError`. -/
def Obligations.ClrkClearsKey : Prop :=
  encode .clrk = 0x0200 ∧
  ∀ s : State, s.err = 0x00 →
    (s.mact = false → exec .clrk s =
      .next { s with key := Block.zero, kcnt := 0, responses := s.responses ++ [0x0000] }) ∧
    (s.mact = true → exec .clrk s = .next (s.raise .sequenceError))

/-- Rule R76: DPUSH in IDLE mode stores the byte at index `ICNT` below 16 and counts it; from 16 on the byte
is discarded and `ICNT` reads 17; in MAC mode it raises `SequenceError`. -/
def Obligations.DpushStoresBlockByte : Prop :=
  ∀ d : Byte, encode (.dpush d) = 0x1100 + d.setWidth 16 ∧
  ∀ s : State, s.err = 0x00 →
    (s.mact = false → ∀ h : s.icnt.val < 16, exec (.dpush d) s =
      .next { s with
        ibuf := s.ibuf.set s.icnt.val d h, icnt := s.icnt + 1,
        responses := s.responses ++ [0x0000] }) ∧
    (s.mact = false → 16 ≤ s.icnt.val → exec (.dpush d) s =
      .next { s with icnt := 17, responses := s.responses ++ [0x0000] }) ∧
    (s.mact = true → exec (.dpush d) s = .next (s.raise .sequenceError))

/-- Rule R77: RDOUT answers `DOUT[idx]` in either mode while `OVALID = 1` and changes nothing; with
`OVALID = 0` it raises `NoOutput`; `RDOUT` with `arg` in `0x10..0xFF` is an illegal word. -/
def Obligations.RdoutReadsResult : Prop :=
  (∀ idx : BitVec 4, encode (.rdout idx) = 0x3000 + idx.setWidth 16 ∧
    ∀ s : State, s.err = 0x00 →
      (s.ovalid = true → exec (.rdout idx) s =
        .next { s with responses := s.responses ++ [(s.dout[idx.toFin]).setWidth 16] }) ∧
      (s.ovalid = false → exec (.rdout idx) s = .next (s.raise .noOutput))) ∧
  (∀ arg : Byte, 0x10 ≤ arg.toNat → decode (commandWord 0x30 arg) = .error .indexBitsNotZero)

/-- Rule R78: RDSTAT answers the `STATUS` byte, with bit 8 repeating bit 7, in every mode, faulted
included, and writes nothing. -/
def Obligations.RdstatReadsStatus : Prop :=
  encode .rdstat = 0x3100 ∧
  (∀ s : State, exec .rdstat s = .next { s with
    responses := s.responses ++
      [(if s.kcnt.val = 16 then 0x0001 else 0) + (if s.icnt.val = 16 then 0x0002 else 0) +
        (if s.ovalid then 0x0004 else 0) + (if s.mact then 0x0008 else 0) +
        (if s.err ≠ 0x00 then 0x0180 else 0)] }) ∧
  (∀ s : State, s.toEngine.Inv → s.err ≠ 0x00 → s.status = 0x80)

/-- Rule R79: RDERR answers `ERR` in every mode and writes nothing; `ERR` is not cleared. -/
def Obligations.RderrReadsCode : Prop :=
  encode .rderr = 0x3200 ∧
  ∀ s : State, exec .rderr s = .next { s with
    responses := s.responses ++ [(if s.err = 0x00 then 0 else 0x0100) + s.err.setWidth 16] }

/-- Rule R101: ENC tests the mode, then the key, then the block; then `DOUT` is `AES128(KEY, IBUF)`,
`OVALID` is 1, and the buffer is empty; nothing else changes. -/
def Obligations.EncEncryptsBlock : Prop :=
  encode .enc = 0x2000 ∧
  ∀ s : State, s.err = 0x00 →
    (s.mact = true → exec .enc s = .next (s.raise .sequenceError)) ∧
    (s.mact = false → s.kcnt.val ≠ 16 → exec .enc s = .next (s.raise .invalidKeyLength)) ∧
    (s.mact = false → s.kcnt.val = 16 → s.icnt.val ≠ 16 →
      exec .enc s = .next (s.raise .invalidBlockLength)) ∧
    (s.mact = false → s.kcnt.val = 16 → s.icnt.val = 16 → exec .enc s =
      .next { s with
        dout := aes128 s.key s.ibuf, ovalid := true, ibuf := Block.zero, icnt := 0,
        responses := s.responses ++ [0x0000] })

/-- Rule R125: MINIT tests the mode, then the key; then the subkeys are derived, `X`, `IBUF` and `DOUT` are
zero, `ICNT` and `OVALID` 0, `MACT` 1; nothing else changes. -/
def Obligations.MinitOpensMac : Prop :=
  encode .minit = 0x2100 ∧
  ∀ s : State, s.err = 0x00 →
    (s.mact = true → exec .minit s = .next (s.raise .sequenceError)) ∧
    (s.mact = false → s.kcnt.val ≠ 16 → exec .minit s = .next (s.raise .invalidKeyLength)) ∧
    (s.mact = false → s.kcnt.val = 16 → exec .minit s =
      .next { s with
        k1 := dbl (aes128 s.key Block.zero), k2 := dbl (dbl (aes128 s.key Block.zero)),
        x := Block.zero, ibuf := Block.zero, icnt := 0, dout := Block.zero, ovalid := false,
        mact := true, responses := s.responses ++ [0x0000] })

/-- Rule R126: MPUSH in MAC mode appends the byte; a full buffer is chained into `X` first and the byte
becomes `IBUF[0]`; in IDLE mode it raises `SequenceError`. -/
def Obligations.MpushAppendsMessageByte : Prop :=
  ∀ d : Byte, encode (.mpush d) = 0x1200 + d.setWidth 16 ∧
  ∀ s : State, s.err = 0x00 →
    (s.mact = true → ∀ h : s.icnt.val < 16, exec (.mpush d) s =
      .next { s with
        ibuf := s.ibuf.set s.icnt.val d h, icnt := s.icnt + 1,
        responses := s.responses ++ [0x0000] }) ∧
    (s.mact = true → s.icnt.val = 16 → exec (.mpush d) s =
      .next { s with
        x := aes128 s.key (blockXor s.x s.ibuf), ibuf := Block.zero.set 0 d, icnt := 1,
        responses := s.responses ++ [0x0000] }) ∧
    (s.mact = false → exec (.mpush d) s = .next (s.raise .sequenceError))

/-- Rule R127: MFINAL in MAC mode writes the tag to `DOUT`: with `ICNT = 16` over `IBUF xor K1`, below 16
over the buffer padded with `0x80` at `ICNT`, xor `K2`; `OVALID` is 1 and the CMAC is closed. In IDLE
mode it raises `SequenceError`. -/
def Obligations.MfinalWritesTag : Prop :=
  encode .mfinal = 0x2200 ∧
  ∀ s : State, s.err = 0x00 →
    (s.mact = true → s.icnt.val = 16 → exec .mfinal s =
      .next { s with
        dout := aes128 s.key (blockXor s.x (blockXor s.ibuf s.k1)), ovalid := true,
        x := Block.zero, k1 := Block.zero, k2 := Block.zero, ibuf := Block.zero, icnt := 0,
        mact := false, responses := s.responses ++ [0x0000] }) ∧
    (s.mact = true → ∀ h : s.icnt.val < 16, exec .mfinal s =
      .next { s with
        dout := aes128 s.key (blockXor s.x (blockXor (s.ibuf.set s.icnt.val 0x80 h) s.k2)),
        ovalid := true, x := Block.zero, k1 := Block.zero, k2 := Block.zero,
        ibuf := Block.zero, icnt := 0, mact := false,
        responses := s.responses ++ [0x0000] }) ∧
    (s.mact = false → exec .mfinal s = .next (s.raise .sequenceError))

/-- Rule R128: MABORT in either mode clears `X`, `K1`, `K2`, `IBUF`, `ICNT` and `MACT`; `KEY`, `KCNT`,
`DOUT`, `OVALID` and `ERR` are unchanged. -/
def Obligations.MabortDropsMac : Prop :=
  encode .mabort = 0x2300 ∧
  ∀ s : State, s.err = 0x00 → exec .mabort s =
    .next { s with
      x := Block.zero, k1 := Block.zero, k2 := Block.zero, ibuf := Block.zero, icnt := 0,
      mact := false, responses := s.responses ++ [0x0000] }

/-- Outside rule R24, in MAC mode with `ICNT = 17`, MPUSH and MFINAL stop: the rules would write byte 17
of a 16-byte register. The model's choice (log entry 6); no state that meets rule R24 is one. -/
def Obligations.MacBufferOverrunStops : Prop :=
  (∀ (s : State) (d : Byte), s.err = 0x00 → s.mact = true → s.icnt.val = 17 →
    exec (.mpush d) s = .fault .bufferIndexOutOfRange ∧
    exec .mfinal s = .fault .bufferIndexOutOfRange) ∧
  (∀ e : Engine, e.Inv → ¬ (e.mact = true ∧ e.icnt.val = 17))

/-! ## Errors, modes, frames -/

/-- Rule R176: a command that raises an error zeroises every register, leaves MAC mode, records the code,
answers `0x0100` and has no other effect. -/
def Obligations.FaultingCommandZeroises : Prop :=
  (∀ (s : State) (c : EngineError), s.raise c =
    ⟨⟨Block.zero, Block.zero, Block.zero, Block.zero, Block.zero, Block.zero,
      0, 0, false, false, c.code⟩, s.inputs, s.responses ++ [0x0100]⟩) ∧
  (∀ (s t : State) (w : CommandWord), command w s = .next t → s.err = 0x00 → t.err ≠ 0x00 →
    ∃ c : EngineError, t = s.raise c)

/-- Rule R178: while faulted RDSTAT answers `0x0180`, RDERR answers `0x0100 + ERR`, SRST ends the fault,
and every other word, legal or illegal, changes nothing and answers `0x0100`. -/
def Obligations.FaultedEngineIgnoresOthers : Prop :=
  ∀ (s : State) (w : CommandWord), s.toEngine.Inv → s.err ≠ 0x00 →
    command w s = .next (
      if w = 0x3100 then { s with responses := s.responses ++ [0x0180] }
      else if w = 0x3200 then { s with responses := s.responses ++ [0x0100 + s.err.setWidth 16] }
      else if w = 0x0100 then
        { State.reset with inputs := s.inputs, responses := s.responses ++ [0x0000] }
      else { s with responses := s.responses ++ [0x0100] })

/-- Rule R177: the first test that fires decides the code: already faulted, illegal word, mode, key
length, block length, output. -/
def Obligations.FirstTestDecidesError : Prop :=
  ∀ (s t : State) (w : CommandWord), command w s = .next t →
    (s.err ≠ 0x00 → t.err = if w = 0x0100 then 0x00 else s.err) ∧
    (s.err = 0x00 → t.err =
      match decode w with
      | .error _ => 0x03
      | .ok i =>
        if (modeRuleOf i).allows s.mact = false then 0x04
        else match i with
          | .enc => if s.kcnt.val ≠ 16 then 0x02 else if s.icnt.val ≠ 16 then 0x01 else 0x00
          | .minit => if s.kcnt.val ≠ 16 then 0x02 else 0x00
          | .rdout _ => if s.ovalid then 0x00 else 0x05
          | _ => 0x00)

/-- Rule R173: a command in a mode that does not allow it raises `SequenceError`, one in a mode that allows
it never does; RDOUT in MAC mode always raises `NoOutput`. -/
def Obligations.ModeDecidesLegality : Prop :=
  (∀ (s : State) (i : Instr), s.err = 0x00 → (modeRuleOf i).allows s.mact = false →
    exec i s = .next (s.raise .sequenceError)) ∧
  (∀ (s t : State) (i : Instr), s.err = 0x00 → (modeRuleOf i).allows s.mact = true →
    exec i s = .next t → t.err ≠ 0x04) ∧
  (∀ (s : State) (idx : BitVec 4), s.toEngine.Inv → s.err = 0x00 → s.mact = true →
    exec (.rdout idx) s = .next (s.raise .noOutput))

/-- Rule R20: a step changes `ERR` only by fault entry, from `0x00` to a code 1..5, or by SRST or hardware
reset, to `0x00`; so the first code stays. -/
def Obligations.ErrKeepsFirstCode : Prop :=
  ∀ s t : State, step s = .next t → t.err ≠ s.err →
    (s.err = 0x00 ∧ 1 ≤ t.err.toNat ∧ t.err.toNat ≤ 5) ∨
    (t.err = 0x00 ∧ ∃ p rest, s.inputs = p :: rest ∧
      (p.rstN = false ∨ (p.cmdValid = true ∧ p.cmd = 0x0100)))

/-- Rule R180: the exits from the faulted mode are SRST and hardware reset, both give the reset state, and
nothing else does. -/
def Obligations.OnlyResetLeavesFaulted : Prop :=
  ∀ (s : State) (p : PortCycle) (rest : List PortCycle), s.inputs = p :: rest → s.err ≠ 0x00 →
    (p.rstN = false ∨ (p.cmdValid = true ∧ p.cmd = 0x0100) →
      ∃ t, step s = .next t ∧ t.toEngine = Engine.reset) ∧
    (¬ (p.rstN = false ∨ (p.cmdValid = true ∧ p.cmd = 0x0100)) →
      ∀ t, step s = .next t → t.err = s.err)

/-- Rule R82: the mode after a command: FAULTED by an error, MAC by MINIT, IDLE by MFINAL, MABORT and
SRST, unchanged by every other; hardware reset gives IDLE. -/
def Obligations.ModeTransitions : Prop :=
  (∀ (s t : State) (w : CommandWord), command w s = .next t →
    t.mode =
      if t.err ≠ 0x00 then .faulted
      else match decode w with
        | .ok .minit => .mac
        | .ok .mfinal | .ok .mabort | .ok .srst => .idle
        | _ => s.mode) ∧
  (∀ (s : State) (p : PortCycle), p.rstN = false →
    ∃ t, portCycle p s = .next t ∧ t.mode = .idle)

/-- The frame of every command, from the "written by" column of rule R10 and the blank cells of rules R80
and R130: when no error is raised, a register changes only under the commands named for it. -/
def Obligations.RegistersHaveNamedWriters : Prop :=
  ∀ (s t : State) (i : Instr), exec i s = .next t → s.err = 0x00 → t.err = 0x00 →
    (writesKey i = false → t.key = s.key ∧ t.kcnt = s.kcnt) ∧
    (writesInput i = false → t.ibuf = s.ibuf ∧ t.icnt = s.icnt) ∧
    (writesOutput i = false → t.dout = s.dout ∧ t.ovalid = s.ovalid) ∧
    (writesChain i = false → t.x = s.x) ∧
    (writesSubkeys i = false → t.k1 = s.k1 ∧ t.k2 = s.k2 ∧ t.mact = s.mact) ∧
    t.inputs = s.inputs ∧ ∃ rsp, t.responses = s.responses ++ [rsp]

/-- No command returns `KEY`, `IBUF`, `X`, `K1` or `K2` (rules R11, R25, R182): two engines that differ only
there answer every word alike, and stay alike to the host except in what ENC and MFINAL put into
`DOUT`. -/
def Obligations.SecretsHaveNoReadPath : Prop :=
  ∀ (a b ta : State) (w : CommandWord), a.toEngine.SameReadable b.toEngine →
    a.responses = b.responses → command w a = .next ta →
      ∃ tb, command w b = .next tb ∧ ta.responses = tb.responses ∧
        Engine.SameReadable { ta.toEngine with dout := Block.zero }
          { tb.toEngine with dout := Block.zero } ∧
        (w ≠ 0x2000 → w ≠ 0x2200 → ta.dout = tb.dout)

/-- Rule R195: in IDLE mode a key byte and a data byte may be pushed in either order, with the same
resulting state. -/
def Obligations.KeyAndDataPushesCommute : Prop :=
  ∀ (s : State) (k d : Byte), s.err = 0x00 → s.mact = false →
    ∃ t t' u, exec (.kpush k) s = .next t ∧ exec (.dpush d) t = .next u ∧
      exec (.dpush d) s = .next t' ∧ exec (.kpush k) t' = .next u

/-! ## AES-128 -/

/-- The three examples of rule R100. -/
def Obligations.CipherExamples : Prop :=
  aes128 (blockOfNat 0x000102030405060708090a0b0c0d0e0f)
    (blockOfNat 0x00112233445566778899aabbccddeeff) =
      blockOfNat 0x69c4e0d86a7b0430d8cdb78070b4c55a ∧
  aes128 (blockOfNat 0x2b7e151628aed2a6abf7158809cf4f3c)
    (blockOfNat 0x3243f6a8885a308d313198a2e0370734) =
      blockOfNat 0x3925841d02dc09fbdc118597196a0b32 ∧
  aes128 Block.zero Block.zero = blockOfNat 0x66e94bd4ef8a2c3b884cfa59ca342b2e

/-- Rule R92: the S-box table is the affine map of the inverse, and a permutation. -/
def Obligations.SboxIsAffineOfInverse : Prop :=
  (∀ a : Byte, sbox a = affine (inv a)) ∧ (∀ a b : Byte, sbox a = sbox b → a = b) ∧
  sbox 0x00 = 0x63 ∧ sbox 0x01 = 0x7c ∧ sbox 0x53 = 0xed ∧ sbox 0xff = 0x16

/-- Rule R91: `xtime` and `mul` as the rule computes them; `mul` is commutative, associative, distributes
over `xor`, has the given values at 0, 1, 2 and 3, and every non-zero byte has exactly one inverse, which
`inv` gives; and the rule's examples. -/
def Obligations.FieldLaws : Prop :=
  (∀ a : Byte, xtime a = (a <<< 1) ^^^ (if a.getLsbD 7 then 0x1b else 0x00)) ∧
  (∀ a b : Byte, mul a b =
    (List.ofFn fun j : Fin 8 =>
      if b.getLsbD j.val then xtime^[j.val] a else 0x00).foldr (fun x y => x ^^^ y) 0x00) ∧
  (∀ a b : Byte, mul a b = mul b a) ∧
  (∀ a b c : Byte, mul (mul a b) c = mul a (mul b c)) ∧
  (∀ a b c : Byte, mul a (b ^^^ c) = mul a b ^^^ mul a c) ∧
  (∀ a : Byte, mul a 0x00 = 0x00 ∧ mul a 0x01 = a ∧ mul a 0x02 = xtime a ∧
    mul a 0x03 = xtime a ^^^ a) ∧
  (∀ a : Byte, a ≠ 0x00 → mul a (inv a) = 0x01 ∧ ∀ b : Byte, mul a b = 0x01 → b = inv a) ∧
  inv 0x00 = 0x00 ∧
  xtime 0x57 = 0xae ∧ xtime 0xae = 0x47 ∧ xtime 0x47 = 0x8e ∧ xtime 0x8e = 0x07 ∧
  xtime 0x80 = 0x1b ∧ xtime 0xff = 0xe5 ∧ mul 0x57 0x13 = 0xfe ∧ mul 0x57 0x83 = 0xc1

/-- The flat transformations are the row and column forms of rules R93, R94 and R95 on the state array of
rule R90, and loading and unloading are inverse. -/
def Obligations.FlatFormIsStateArrayForm : Prop :=
  ∀ b : Block,
    unloadArray (loadArray b) = b ∧
    unloadArray (subBytesArray (loadArray b)) = subBytes b ∧
    unloadArray (shiftRowsArray (loadArray b)) = shiftRows b ∧
    unloadArray (mixColumnsArray (loadArray b)) = mixColumns b

/-- Rule R98: the key schedule has 44 words, starts with the key, and satisfies the recurrence for `i` in
4..43. -/
def Obligations.KeyScheduleRecurrence : Prop :=
  ∀ k : Block,
    (keyExpansion k).length = 44 ∧
    (∀ i : Fin 4, wordAt (keyExpansion k) i.val =
      ⟨k[4 * i.val], k[4 * i.val + 1], k[4 * i.val + 2], k[4 * i.val + 3]⟩) ∧
    (∀ i : Nat, 4 ≤ i → i < 44 →
      wordAt (keyExpansion k) i =
        wordXor (wordAt (keyExpansion k) (i - 4))
          (if i % 4 = 0 then
            wordXor (subWord (rotWord (wordAt (keyExpansion k) (i - 1)))) (rcon (i / 4))
          else wordAt (keyExpansion k) (i - 1)))

/-- Rule R99: round key `r` is the words `4r` to `4r+3` in order, each its four bytes in order, and
`rk_0 = k`. -/
def Obligations.RoundKeyLayout : Prop :=
  (∀ (k : Block), roundKey (keyExpansion k) 0 = k) ∧
  (∀ (k : Block) (r : Nat) (c : Fin 4), r ≤ 10 →
    (roundKey (keyExpansion k) r)[4 * c.val] = (wordAt (keyExpansion k) (4 * r + c.val)).a0 ∧
    (roundKey (keyExpansion k) r)[4 * c.val + 1] = (wordAt (keyExpansion k) (4 * r + c.val)).a1 ∧
    (roundKey (keyExpansion k) r)[4 * c.val + 2] = (wordAt (keyExpansion k) (4 * r + c.val)).a2 ∧
    (roundKey (keyExpansion k) r)[4 * c.val + 3] = (wordAt (keyExpansion k) (4 * r + c.val)).a3)

/-! ## CMAC -/

/-- Rule R121 on the 128-bit number of rule R120: twice the number modulo `2^128`, xor `0x87` when the top
bit was set. -/
def Obligations.DoublingIsOnNumbers : Prop :=
  ∀ v : Block,
    blockToNat v < 2 ^ 128 ∧
    (blockMsb v = true ↔ 2 ^ 127 ≤ blockToNat v) ∧
    blockToNat (blockShl1 v) = 2 * blockToNat v % 2 ^ 128 ∧
    blockToNat (dbl v) =
      if 2 ^ 127 ≤ blockToNat v then (2 * blockToNat v % 2 ^ 128) ^^^ 0x87
      else 2 * blockToNat v % 2 ^ 128

/-- Rule R124: for every 16-byte key and every message, from every IDLE state, the command list raises no
error and ends in IDLE mode with `DOUT = CMAC(k, m)`; and after MINIT and the pushes so far, `X` is the
chain value of the full blocks before the last, `IBUF` and `ICNT` the last block. -/
def Obligations.StreamComputesCmac : Prop :=
  ∀ (k m : List Byte) (s : State), k.length = 16 → s.err = 0x00 → s.mact = false →
    (∃ t, issueAll ((loadKeyCommands k ++ Instr.minit :: m.map Instr.mpush).map encode) s = .next t ∧
      t.err = 0x00 ∧ t.mact = true ∧ t.key = blockOfBytes k ∧
      t.icnt.val = m.length - 16 * ((m.length + 15) / 16 - 1) ∧
      t.x = chainValue (blockOfBytes k) m ((m.length + 15) / 16 - 1) ∧
      t.ibuf = blockOfBytes (m.drop (16 * ((m.length + 15) / 16 - 1)))) ∧
    (∃ t, issueAll ((cmacStream k m).map encode) s = .next t ∧
      t.err = 0x00 ∧ t.mact = false ∧ t.ovalid = true ∧ t.dout = cmac (blockOfBytes k) m ∧
      t.responses = s.responses ++ List.replicate (m.length + 19) 0x0000)

/-! ## Host procedures on the engine -/

/-- Rule R141: `hexToBytes` takes exactly the strings of `2n` hexadecimal digits, and byte `i` of the `n`
bytes has digit `2i` as its high nibble and digit `2i + 1` as its low nibble. Which characters are digits
is the model's choice for the letters' case (log entry 11). -/
def Obligations.HexPairsAreBytes : Prop :=
  (∀ s : String, (hexToBytes s).isSome = true ↔
    s.toList.length % 2 = 0 ∧ ∀ c ∈ s.toList, (hexDigit c).isSome = true) ∧
  (∀ (s : String) (bs : List Byte), hexToBytes s = some bs →
    s.toList.length = 2 * bs.length ∧
    ∀ i < bs.length, ∃ hi lo, hexDigit (s.toList.getD (2 * i) '0') = some hi ∧
      hexDigit (s.toList.getD (2 * i + 1) '0') = some lo ∧ hi < 16 ∧ lo < 16 ∧
      (bs.getD i 0x00).toNat = 16 * hi + lo)

/-- Rule R142: `intToLE(v, n)` is `n` bytes, byte `i` is `(v >> 8i) AND 0xff`, and for `v < 2^(8n)` they are
`v` read least significant byte first. For `v >= 2^(8n)`, which the rule does not define, the first two
clauses are the model's choice (log entry 19). -/
def Obligations.IntegerBytesLeastFirst : Prop :=
  ∀ v n : Nat, (intToLE v n).length = n ∧
    (∀ i < n, ((intToLE v n).getD i 0x00).toNat = (v >>> (8 * i)) &&& 0xff) ∧
    (v < 2 ^ (8 * n) → (intToLE v n).foldr (fun b rest => b.toNat + 256 * rest) 0 = v)

/-- Rule R146: a host sequence that sees `rsp[8] = 1` discards the bytes it has read, reads the cause, ends
the fault with SRST and reports the error; no later command of it is issued. That it looks after every
command is the model's choice (log entry 12). -/
def Obligations.HostDiscardsAfterFault : Prop :=
  ∀ (i : Instr) (later : List Instr) (kept : List Byte) (s t : State),
    command (encode i) s = .next t → t.err ≠ 0x00 →
      hostSequence (i :: later) kept s =
        .next ⟨⟨Engine.reset, t.inputs,
          t.responses ++ [0x0100 + t.err.setWidth 16, 0x0000]⟩, .error (.engineError t.err)⟩

/-- Rule R143: from every IDLE state `LOADKEY k` issues 17 commands, after which `KEY = k` and `KCNT = 16` and
nothing else has changed; a `k` that is not 16 bytes fails with `InvalidKeyLength` before any command, and
where it is pushed anyway the next ENC or MINIT raises the error. -/
def Obligations.LoadKeyMacro : Prop :=
  ∀ (k : List Byte) (s : State),
    (k.length ≠ 16 → hostLoadKey k s = .next ⟨s, .error .invalidKeyLength⟩) ∧
    (s.err = 0x00 → s.mact = false →
      (k.length = 16 → (loadKeyCommands k).length = 17 ∧
        hostLoadKey k s = .next ⟨{ s with
          key := blockOfBytes k, kcnt := 16,
          responses := s.responses ++ List.replicate 17 0x0000 }, .ok []⟩) ∧
      (k.length ≠ 16 → ∃ t, issueAll ((loadKeyCommands k).map encode) s = .next t ∧
        exec .enc t = .next (t.raise .invalidKeyLength) ∧
        exec .minit t = .next (t.raise .invalidKeyLength)))

/-- Rule R144: from every IDLE state `ENCRYPT_BLOCK k, b` reads back `AES128(k, b)`; a block that is not 16
bytes fails with `InvalidBlockLength` before any command, and where it is pushed anyway ENC raises the
error; with the key already loaded the LOADKEY part may be left out. -/
def Obligations.EncryptBlockMacro : Prop :=
  ∀ (k b : List Byte) (s : State), k.length = 16 → s.err = 0x00 → s.mact = false →
    (encryptBlockCommands k b).length = 17 + 1 + b.length + 1 + 16 ∧
    (b.length = 16 → ∃ t, hostEncryptBlock k b s =
      .next ⟨t, .ok (aes128 (blockOfBytes k) (blockOfBytes b)).toList⟩) ∧
    (b.length ≠ 16 → hostEncryptBlock k b s = .next ⟨s, .error .invalidBlockLength⟩ ∧
      ∃ t, issueAll ((loadKeyCommands k ++ Instr.clrd :: b.map Instr.dpush ++ [Instr.enc]).map encode) s =
        .next t ∧ t.err = 0x01) ∧
    (b.length = 16 → s.kcnt.val = 16 → s.key = blockOfBytes k →
      ∃ t, hostSequence ((encryptBlockCommands k b).drop 17) [] s =
        .next ⟨t, .ok (aes128 (blockOfBytes k) (blockOfBytes b)).toList⟩)

/-- Rule R145: from every IDLE state `CMAC k, m` reads back `CMAC(k, m)`, in 17 + 1 + len + 1 + 16
commands; with `RDOUT 0..3` alone, its first four bytes. -/
def Obligations.CmacMacro : Prop :=
  ∀ (k m : List Byte) (s : State), k.length = 16 → s.err = 0x00 → s.mact = false →
    (cmacCommands k m).length = 17 + 1 + m.length + 1 + 16 ∧
    (∃ t, hostCmac k m s = .next ⟨t, .ok (cmac (blockOfBytes k) m).toList⟩) ∧
    ∃ t, hostSequence (cmacStream k m ++ [.rdout 0, .rdout 1, .rdout 2, .rdout 3]) [] s =
      .next ⟨t, .ok ((cmac (blockOfBytes k) m).toList.take 4)⟩

/-- Rule R151: `encryptPayload` xors the payload with a keystream that does not depend on the payload; it
keeps the length and, applied twice, gives the payload back, for every length it accepts. -/
def Obligations.PayloadCipherIsInvolution : Prop :=
  ∀ (key : Block) (addr : Vector Byte 4) (fcnt : BitVec 32) (dir : Direction),
    ∃ ks : List Byte, ks.length = 4080 ∧ ∀ pt : List Byte, pt.length ≤ 4080 →
      ∃ ct, encryptPayload pt key addr fcnt dir = .ok ct ∧ ct = xorBytes pt ks ∧
        ct.length = pt.length ∧ encryptPayload ct key addr fcnt dir = .ok pt

/-- Rules R149, R150 on the engine: from an IDLE state the driver's result is `encryptPayload`, with an empty
buffer for every payload and with any buffer for the empty payload; over 4080 bytes it fails with
`PayloadTooLarge` before any command. The empty buffer is DEDUCED (log entry 13): the sequence of rule
R149 has no CLRD. -/
def Obligations.PayloadCipherOnEngine : Prop :=
  ∀ (pt key : List Byte) (addr : Vector Byte 4) (fcnt : BitVec 32) (dir : Direction) (s : State),
    key.length = 16 → s.err = 0x00 → s.mact = false →
      (pt.length ≤ 4080 → s.icnt.val = 0 ∨ pt = [] →
        ∃ t ct, hostEncryptPayload pt key addr fcnt dir s = .next ⟨t, .ok ct⟩ ∧
          encryptPayload pt (blockOfBytes key) addr fcnt dir = .ok ct ∧
          t.err = 0x00 ∧ t.mact = false) ∧
      (4080 < pt.length →
        hostEncryptPayload pt key addr fcnt dir s = .next ⟨s, .error .payloadTooLarge⟩)

/-- Rules R154, R159, R160: from an IDLE state with an empty buffer, or with any buffer for an empty payload,
the driver builds exactly `buildUplinkFrame`; on success the engine is left in the reset state, on a validation error it is not
touched; the commands it issues are those of rule R159. The empty buffer is DEDUCED (log entry 13). -/
def Obligations.FrameAssemblyOnEngine : Prop :=
  ∀ (addr pt nwkKey appKey : List Byte) (fcnt : BitVec 32) (fport : Byte) (s : State),
    s.err = 0x00 → s.mact = false → s.icnt.val = 0 ∨ pt = [] →
      match validateFrame addr pt nwkKey appKey with
      | some e =>
        hostBuildUplinkFrame addr fcnt fport pt nwkKey appKey s = .next ⟨s, .error e⟩ ∧
        buildUplinkFrame addr fcnt fport pt nwkKey appKey = .error e
      | none => ∃ t frame,
        hostBuildUplinkFrame addr fcnt fport pt nwkKey appKey s = .next ⟨t, .ok frame⟩ ∧
        buildUplinkFrame addr fcnt fport pt nwkKey appKey = .ok frame ∧
        t.toEngine = Engine.reset ∧
        issueAll ((frameCommands (addressOf addr) fcnt pt.length (frame.take (9 + pt.length))
          nwkKey appKey).map encode) s = .next t

/-- Rule R159: the command sequence of one frame of `N` payload bytes has `66 + 17 nblk + 2N` commands. -/
def Obligations.FrameCommandCount : Prop :=
  ∀ (addr : Vector Byte 4) (fcnt : BitVec 32) (n : Nat) (body nwkKey appKey : List Byte),
    nwkKey.length = 16 → appKey.length = 16 → body.length = 9 + n →
      (frameCommands addr fcnt n body nwkKey appKey).length = 66 + 17 * ((n + 15) / 16) + 2 * n

/-- Rule R156: the layout of a frame: 9 header bytes with the address reversed and the low 16 bits of the
counter little-endian, the encrypted payload, the first four tag bytes over everything before. -/
def Obligations.FrameLayout : Prop :=
  ∀ (addr pt nwkKey appKey frame : List Byte) (fcnt : BitVec 32) (fport : Byte),
    buildUplinkFrame addr fcnt fport pt nwkKey appKey = .ok frame →
      frame.length = 9 + pt.length + 4 ∧
      frame.take 9 = [0x40, addr.getD 3 0, addr.getD 2 0, addr.getD 1 0, addr.getD 0 0, 0x00,
        fcnt.extractLsb' 0 8, fcnt.extractLsb' 8 8, fport] ∧
      encryptPayload pt (blockOfBytes appKey) (addressOf addr) fcnt .uplink =
        .ok ((frame.drop 9).take pt.length) ∧
      frame.drop (9 + pt.length) =
        ((cmac (blockOfBytes nwkKey)
          ((authBlock (addressOf addr) fcnt .uplink (9 + pt.length)).toList ++
            frame.take (9 + pt.length))).toList).take 4

/-- Rule R155: the four tests in their order; the first that fails is the error, and no command is issued,
whatever state the engine is in; a frame that passes them all is built. -/
def Obligations.ValidationOrder : Prop :=
  ∀ (addr pt nwkKey appKey : List Byte) (fcnt : BitVec 32) (fport : Byte) (s : State),
    ((nwkKey.length ≠ 16 ∨ appKey.length ≠ 16) →
      buildUplinkFrame addr fcnt fport pt nwkKey appKey = .error .invalidKeyLength ∧
      hostBuildUplinkFrame addr fcnt fport pt nwkKey appKey s =
        .next ⟨s, .error .invalidKeyLength⟩) ∧
    (nwkKey.length = 16 → appKey.length = 16 → addr.length ≠ 4 →
      buildUplinkFrame addr fcnt fport pt nwkKey appKey = .error .invalidAddressLength ∧
      hostBuildUplinkFrame addr fcnt fport pt nwkKey appKey s =
        .next ⟨s, .error .invalidAddressLength⟩) ∧
    (nwkKey.length = 16 → appKey.length = 16 → addr.length = 4 → 4080 < pt.length →
      buildUplinkFrame addr fcnt fport pt nwkKey appKey = .error .payloadTooLarge ∧
      hostBuildUplinkFrame addr fcnt fport pt nwkKey appKey s =
        .next ⟨s, .error .payloadTooLarge⟩) ∧
    (nwkKey.length = 16 → appKey.length = 16 → addr.length = 4 → 247 ≤ pt.length →
      pt.length ≤ 4080 →
      buildUplinkFrame addr fcnt fport pt nwkKey appKey = .error .frameTooLarge ∧
      hostBuildUplinkFrame addr fcnt fport pt nwkKey appKey s =
        .next ⟨s, .error .frameTooLarge⟩) ∧
    (nwkKey.length = 16 → appKey.length = 16 → addr.length = 4 → pt.length ≤ 246 →
      ∃ frame, buildUplinkFrame addr fcnt fport pt nwkKey appKey = .ok frame)

/-- Rule R157: the header holds only the low 16 bits of the frame counter, the blocks `A_i` and `B0` all
32, so that two counters with equal low halves have equal headers and different blocks. For an index or
a length outside 1..255 and 0..255 the blocks are the model's choice (log entry 19). -/
def Obligations.CounterWidthInHeaderAndBlocks : Prop :=
  ∀ (addr : Vector Byte 4) (f g : BitVec 32) (fport : Byte) (dir : Direction) (i : Nat),
    (f.toNat % 65536 = g.toNat % 65536 ↔ frameHeader addr f fport = frameHeader addr g fport) ∧
    (counterBlock addr f dir i = counterBlock addr g dir i ↔ f = g) ∧
    (authBlock addr f dir i = authBlock addr g dir i ↔ f = g)
end

