-- ==== Sys2Proof/Laws/Driver.lean ====
section
/-!
SUPPORT. What the shared operations of the host drivers can do (45_host_sequences.md rules R143, R146).
-/

namespace Sys2Proof.Machine

theorem requireKeyBytes_right {k : List Byte} (body : State → HostResult) (s : State)
    (h : k.length = 16) : requireKeyBytes k body s = body s := if_pos h

theorem requireKeyBytes_wrong {k : List Byte} (body : State → HostResult) (s : State)
    (h : k.length ≠ 16) :
    requireKeyBytes k body s = .next ⟨s, .error .invalidKeyLength⟩ := if_neg h

@[simp] theorem hostThen_ok (s : State) (bs : List Byte) (f : State → List Byte → HostResult) :
    hostThen (.next ⟨s, .ok bs⟩) f = f s bs := rfl

@[simp] theorem hostThen_error (s : State) (e : HostError) (f : State → List Byte → HostResult) :
    hostThen (.next ⟨s, .error e⟩) f = .next ⟨s, .error e⟩ := rfl

@[simp] theorem hostSequence_nil (kept : List Byte) (s : State) :
    hostSequence [] kept s = .next ⟨s, .ok kept⟩ := rfl

/-- A command that completes without a fault: the sequence goes on with the byte it keeps. -/
theorem hostSequence_cons {i : Instr} {later : List Instr} {kept : List Byte} {s t : State}
    (h : command (encode i) s = .next t) (hf : responseFault (lastResponse t) = false) :
    hostSequence (i :: later) kept s = hostSequence later (kept ++ keptBytes i t) t := by
  simp [hostSequence, h, hf]

@[simp] theorem issueAll_nil (s : State) : issueAll [] s = .next s := rfl

theorem issueAll_cons {w : CommandWord} {ws : List CommandWord} {s t : State}
    (h : command w s = .next t) : issueAll (w :: ws) s = issueAll ws t := by
  simp [issueAll, h]

end Sys2Proof.Machine
end

