-- ==== Sys2Proof/Laws/State.lean ====
section
/-!
SUPPORT. One lemma per field per update of the engine and of the machine, each true by rfl, so that no
later proof unfolds a record update.
-/

namespace Sys2Proof.Machine

@[simp] theorem Engine.reset_key : Engine.reset.key = Block.zero := rfl
@[simp] theorem Engine.reset_ibuf : Engine.reset.ibuf = Block.zero := rfl
@[simp] theorem Engine.reset_dout : Engine.reset.dout = Block.zero := rfl
@[simp] theorem Engine.reset_x : Engine.reset.x = Block.zero := rfl
@[simp] theorem Engine.reset_k1 : Engine.reset.k1 = Block.zero := rfl
@[simp] theorem Engine.reset_k2 : Engine.reset.k2 = Block.zero := rfl
@[simp] theorem Engine.reset_kcnt : Engine.reset.kcnt = 0 := rfl
@[simp] theorem Engine.reset_icnt : Engine.reset.icnt = 0 := rfl
@[simp] theorem Engine.reset_ovalid : Engine.reset.ovalid = false := rfl
@[simp] theorem Engine.reset_mact : Engine.reset.mact = false := rfl
@[simp] theorem Engine.reset_err : Engine.reset.err = 0x00 := rfl

@[simp] theorem State.reset_toEngine : State.reset.toEngine = Engine.reset := rfl
@[simp] theorem State.reset_inputs : State.reset.inputs = [] := rfl
@[simp] theorem State.reset_responses : State.reset.responses = [] := rfl

@[simp] theorem Engine.clearKey_key (e : Engine) : (e.clearKey).key = Block.zero := rfl
@[simp] theorem Engine.clearKey_ibuf (e : Engine) : (e.clearKey).ibuf = e.ibuf := rfl
@[simp] theorem Engine.clearKey_dout (e : Engine) : (e.clearKey).dout = e.dout := rfl
@[simp] theorem Engine.clearKey_x (e : Engine) : (e.clearKey).x = e.x := rfl
@[simp] theorem Engine.clearKey_k1 (e : Engine) : (e.clearKey).k1 = e.k1 := rfl
@[simp] theorem Engine.clearKey_k2 (e : Engine) : (e.clearKey).k2 = e.k2 := rfl
@[simp] theorem Engine.clearKey_kcnt (e : Engine) : (e.clearKey).kcnt = 0 := rfl
@[simp] theorem Engine.clearKey_icnt (e : Engine) : (e.clearKey).icnt = e.icnt := rfl
@[simp] theorem Engine.clearKey_ovalid (e : Engine) : (e.clearKey).ovalid = e.ovalid := rfl
@[simp] theorem Engine.clearKey_mact (e : Engine) : (e.clearKey).mact = e.mact := rfl
@[simp] theorem Engine.clearKey_err (e : Engine) : (e.clearKey).err = e.err := rfl

@[simp] theorem Engine.clearInput_key (e : Engine) : (e.clearInput).key = e.key := rfl
@[simp] theorem Engine.clearInput_ibuf (e : Engine) : (e.clearInput).ibuf = Block.zero := rfl
@[simp] theorem Engine.clearInput_dout (e : Engine) : (e.clearInput).dout = e.dout := rfl
@[simp] theorem Engine.clearInput_x (e : Engine) : (e.clearInput).x = e.x := rfl
@[simp] theorem Engine.clearInput_k1 (e : Engine) : (e.clearInput).k1 = e.k1 := rfl
@[simp] theorem Engine.clearInput_k2 (e : Engine) : (e.clearInput).k2 = e.k2 := rfl
@[simp] theorem Engine.clearInput_kcnt (e : Engine) : (e.clearInput).kcnt = e.kcnt := rfl
@[simp] theorem Engine.clearInput_icnt (e : Engine) : (e.clearInput).icnt = 0 := rfl
@[simp] theorem Engine.clearInput_ovalid (e : Engine) : (e.clearInput).ovalid = e.ovalid := rfl
@[simp] theorem Engine.clearInput_mact (e : Engine) : (e.clearInput).mact = e.mact := rfl
@[simp] theorem Engine.clearInput_err (e : Engine) : (e.clearInput).err = e.err := rfl

@[simp] theorem Engine.pushKey_key (e : Engine) (d : Byte) :
    (e.pushKey d).key = (pushByte e.key e.kcnt d).1 :=
    rfl
@[simp] theorem Engine.pushKey_ibuf (e : Engine) (d : Byte) : (e.pushKey d).ibuf = e.ibuf := rfl
@[simp] theorem Engine.pushKey_dout (e : Engine) (d : Byte) : (e.pushKey d).dout = e.dout := rfl
@[simp] theorem Engine.pushKey_x (e : Engine) (d : Byte) : (e.pushKey d).x = e.x := rfl
@[simp] theorem Engine.pushKey_k1 (e : Engine) (d : Byte) : (e.pushKey d).k1 = e.k1 := rfl
@[simp] theorem Engine.pushKey_k2 (e : Engine) (d : Byte) : (e.pushKey d).k2 = e.k2 := rfl
@[simp] theorem Engine.pushKey_kcnt (e : Engine) (d : Byte) :
    (e.pushKey d).kcnt = (pushByte e.key e.kcnt d).2 :=
    rfl
@[simp] theorem Engine.pushKey_icnt (e : Engine) (d : Byte) : (e.pushKey d).icnt = e.icnt := rfl
@[simp] theorem Engine.pushKey_ovalid (e : Engine) (d : Byte) : (e.pushKey d).ovalid = e.ovalid := rfl
@[simp] theorem Engine.pushKey_mact (e : Engine) (d : Byte) : (e.pushKey d).mact = e.mact := rfl
@[simp] theorem Engine.pushKey_err (e : Engine) (d : Byte) : (e.pushKey d).err = e.err := rfl

@[simp] theorem Engine.pushInput_key (e : Engine) (d : Byte) : (e.pushInput d).key = e.key := rfl
@[simp] theorem Engine.pushInput_ibuf (e : Engine) (d : Byte) :
    (e.pushInput d).ibuf = (pushByte e.ibuf e.icnt d).1 :=
    rfl
@[simp] theorem Engine.pushInput_dout (e : Engine) (d : Byte) : (e.pushInput d).dout = e.dout := rfl
@[simp] theorem Engine.pushInput_x (e : Engine) (d : Byte) : (e.pushInput d).x = e.x := rfl
@[simp] theorem Engine.pushInput_k1 (e : Engine) (d : Byte) : (e.pushInput d).k1 = e.k1 := rfl
@[simp] theorem Engine.pushInput_k2 (e : Engine) (d : Byte) : (e.pushInput d).k2 = e.k2 := rfl
@[simp] theorem Engine.pushInput_kcnt (e : Engine) (d : Byte) : (e.pushInput d).kcnt = e.kcnt := rfl
@[simp] theorem Engine.pushInput_icnt (e : Engine) (d : Byte) :
    (e.pushInput d).icnt = (pushByte e.ibuf e.icnt d).2 :=
    rfl
@[simp] theorem Engine.pushInput_ovalid (e : Engine) (d : Byte) : (e.pushInput d).ovalid = e.ovalid := rfl
@[simp] theorem Engine.pushInput_mact (e : Engine) (d : Byte) : (e.pushInput d).mact = e.mact := rfl
@[simp] theorem Engine.pushInput_err (e : Engine) (d : Byte) : (e.pushInput d).err = e.err := rfl

@[simp] theorem Engine.absorb_key (e : Engine) : (e.absorb).key = e.key := rfl
@[simp] theorem Engine.absorb_ibuf (e : Engine) : (e.absorb).ibuf = Block.zero := rfl
@[simp] theorem Engine.absorb_dout (e : Engine) : (e.absorb).dout = e.dout := rfl
@[simp] theorem Engine.absorb_x (e : Engine) : (e.absorb).x = aes128 e.key (blockXor e.x e.ibuf) := rfl
@[simp] theorem Engine.absorb_k1 (e : Engine) : (e.absorb).k1 = e.k1 := rfl
@[simp] theorem Engine.absorb_k2 (e : Engine) : (e.absorb).k2 = e.k2 := rfl
@[simp] theorem Engine.absorb_kcnt (e : Engine) : (e.absorb).kcnt = e.kcnt := rfl
@[simp] theorem Engine.absorb_icnt (e : Engine) : (e.absorb).icnt = 0 := rfl
@[simp] theorem Engine.absorb_ovalid (e : Engine) : (e.absorb).ovalid = e.ovalid := rfl
@[simp] theorem Engine.absorb_mact (e : Engine) : (e.absorb).mact = e.mact := rfl
@[simp] theorem Engine.absorb_err (e : Engine) : (e.absorb).err = e.err := rfl

@[simp] theorem Engine.storeMessage_key (e : Engine) (d : Byte) : (e.storeMessage d).key = e.key := rfl
@[simp] theorem Engine.storeMessage_ibuf (e : Engine) (d : Byte) :
    (e.storeMessage d).ibuf = putByte e.ibuf e.icnt.val d :=
    rfl
@[simp] theorem Engine.storeMessage_dout (e : Engine) (d : Byte) : (e.storeMessage d).dout = e.dout := rfl
@[simp] theorem Engine.storeMessage_x (e : Engine) (d : Byte) : (e.storeMessage d).x = e.x := rfl
@[simp] theorem Engine.storeMessage_k1 (e : Engine) (d : Byte) : (e.storeMessage d).k1 = e.k1 := rfl
@[simp] theorem Engine.storeMessage_k2 (e : Engine) (d : Byte) : (e.storeMessage d).k2 = e.k2 := rfl
@[simp] theorem Engine.storeMessage_kcnt (e : Engine) (d : Byte) : (e.storeMessage d).kcnt = e.kcnt := rfl
@[simp] theorem Engine.storeMessage_icnt (e : Engine) (d : Byte) :
    (e.storeMessage d).icnt = countUp e.icnt :=
    rfl
@[simp] theorem Engine.storeMessage_ovalid (e : Engine) (d : Byte) : (e.storeMessage d).ovalid = e.ovalid :=
    rfl
@[simp] theorem Engine.storeMessage_mact (e : Engine) (d : Byte) : (e.storeMessage d).mact = e.mact := rfl
@[simp] theorem Engine.storeMessage_err (e : Engine) (d : Byte) : (e.storeMessage d).err = e.err := rfl

@[simp] theorem Engine.encrypt_key (e : Engine) : (e.encrypt).key = e.key := rfl
@[simp] theorem Engine.encrypt_ibuf (e : Engine) : (e.encrypt).ibuf = Block.zero := rfl
@[simp] theorem Engine.encrypt_dout (e : Engine) : (e.encrypt).dout = aes128 e.key e.ibuf := rfl
@[simp] theorem Engine.encrypt_x (e : Engine) : (e.encrypt).x = e.x := rfl
@[simp] theorem Engine.encrypt_k1 (e : Engine) : (e.encrypt).k1 = e.k1 := rfl
@[simp] theorem Engine.encrypt_k2 (e : Engine) : (e.encrypt).k2 = e.k2 := rfl
@[simp] theorem Engine.encrypt_kcnt (e : Engine) : (e.encrypt).kcnt = e.kcnt := rfl
@[simp] theorem Engine.encrypt_icnt (e : Engine) : (e.encrypt).icnt = 0 := rfl
@[simp] theorem Engine.encrypt_ovalid (e : Engine) : (e.encrypt).ovalid = true := rfl
@[simp] theorem Engine.encrypt_mact (e : Engine) : (e.encrypt).mact = e.mact := rfl
@[simp] theorem Engine.encrypt_err (e : Engine) : (e.encrypt).err = e.err := rfl

@[simp] theorem Engine.openMac_key (e : Engine) : (e.openMac).key = e.key := rfl
@[simp] theorem Engine.openMac_ibuf (e : Engine) : (e.openMac).ibuf = Block.zero := rfl
@[simp] theorem Engine.openMac_dout (e : Engine) : (e.openMac).dout = Block.zero := rfl
@[simp] theorem Engine.openMac_x (e : Engine) : (e.openMac).x = Block.zero := rfl
@[simp] theorem Engine.openMac_k1 (e : Engine) : (e.openMac).k1 = subkey1 e.key := rfl
@[simp] theorem Engine.openMac_k2 (e : Engine) : (e.openMac).k2 = subkey2 e.key := rfl
@[simp] theorem Engine.openMac_kcnt (e : Engine) : (e.openMac).kcnt = e.kcnt := rfl
@[simp] theorem Engine.openMac_icnt (e : Engine) : (e.openMac).icnt = 0 := rfl
@[simp] theorem Engine.openMac_ovalid (e : Engine) : (e.openMac).ovalid = false := rfl
@[simp] theorem Engine.openMac_mact (e : Engine) : (e.openMac).mact = true := rfl
@[simp] theorem Engine.openMac_err (e : Engine) : (e.openMac).err = e.err := rfl

@[simp] theorem Engine.dropMac_key (e : Engine) : (e.dropMac).key = e.key := rfl
@[simp] theorem Engine.dropMac_ibuf (e : Engine) : (e.dropMac).ibuf = Block.zero := rfl
@[simp] theorem Engine.dropMac_dout (e : Engine) : (e.dropMac).dout = e.dout := rfl
@[simp] theorem Engine.dropMac_x (e : Engine) : (e.dropMac).x = Block.zero := rfl
@[simp] theorem Engine.dropMac_k1 (e : Engine) : (e.dropMac).k1 = Block.zero := rfl
@[simp] theorem Engine.dropMac_k2 (e : Engine) : (e.dropMac).k2 = Block.zero := rfl
@[simp] theorem Engine.dropMac_kcnt (e : Engine) : (e.dropMac).kcnt = e.kcnt := rfl
@[simp] theorem Engine.dropMac_icnt (e : Engine) : (e.dropMac).icnt = 0 := rfl
@[simp] theorem Engine.dropMac_ovalid (e : Engine) : (e.dropMac).ovalid = e.ovalid := rfl
@[simp] theorem Engine.dropMac_mact (e : Engine) : (e.dropMac).mact = false := rfl
@[simp] theorem Engine.dropMac_err (e : Engine) : (e.dropMac).err = e.err := rfl

@[simp] theorem Engine.closeMac_key (e : Engine) : (e.closeMac).key = e.key := rfl
@[simp] theorem Engine.closeMac_ibuf (e : Engine) : (e.closeMac).ibuf = Block.zero := rfl
@[simp] theorem Engine.closeMac_dout (e : Engine) :
    (e.closeMac).dout = aes128 e.key (blockXor e.x e.finalBlock) :=
    rfl
@[simp] theorem Engine.closeMac_x (e : Engine) : (e.closeMac).x = Block.zero := rfl
@[simp] theorem Engine.closeMac_k1 (e : Engine) : (e.closeMac).k1 = Block.zero := rfl
@[simp] theorem Engine.closeMac_k2 (e : Engine) : (e.closeMac).k2 = Block.zero := rfl
@[simp] theorem Engine.closeMac_kcnt (e : Engine) : (e.closeMac).kcnt = e.kcnt := rfl
@[simp] theorem Engine.closeMac_icnt (e : Engine) : (e.closeMac).icnt = 0 := rfl
@[simp] theorem Engine.closeMac_ovalid (e : Engine) : (e.closeMac).ovalid = true := rfl
@[simp] theorem Engine.closeMac_mact (e : Engine) : (e.closeMac).mact = false := rfl
@[simp] theorem Engine.closeMac_err (e : Engine) : (e.closeMac).err = e.err := rfl

@[simp] theorem Engine.faultEntry_key (e : Engine) (c : EngineError) : (e.faultEntry c).key = Block.zero :=
    rfl
@[simp] theorem Engine.faultEntry_ibuf (e : Engine) (c : EngineError) :
    (e.faultEntry c).ibuf = Block.zero :=
    rfl
@[simp] theorem Engine.faultEntry_dout (e : Engine) (c : EngineError) :
    (e.faultEntry c).dout = Block.zero :=
    rfl
@[simp] theorem Engine.faultEntry_x (e : Engine) (c : EngineError) : (e.faultEntry c).x = Block.zero := rfl
@[simp] theorem Engine.faultEntry_k1 (e : Engine) (c : EngineError) : (e.faultEntry c).k1 = Block.zero :=
    rfl
@[simp] theorem Engine.faultEntry_k2 (e : Engine) (c : EngineError) : (e.faultEntry c).k2 = Block.zero :=
    rfl
@[simp] theorem Engine.faultEntry_kcnt (e : Engine) (c : EngineError) : (e.faultEntry c).kcnt = 0 := rfl
@[simp] theorem Engine.faultEntry_icnt (e : Engine) (c : EngineError) : (e.faultEntry c).icnt = 0 := rfl
@[simp] theorem Engine.faultEntry_ovalid (e : Engine) (c : EngineError) : (e.faultEntry c).ovalid = false :=
    rfl
@[simp] theorem Engine.faultEntry_mact (e : Engine) (c : EngineError) : (e.faultEntry c).mact = false :=
    rfl
@[simp] theorem Engine.faultEntry_err (e : Engine) (c : EngineError) : (e.faultEntry c).err = c.code := rfl

@[simp] theorem State.answer_toEngine (s : State) (e : Engine) (r : Byte) :
    (s.answer e r).toEngine = e := rfl
@[simp] theorem State.answer_inputs (s : State) (e : Engine) (r : Byte) :
    (s.answer e r).inputs = s.inputs := rfl
@[simp] theorem State.answer_responses (s : State) (e : Engine) (r : Byte) :
    (s.answer e r).responses = s.responses ++ [responseWord e.faulted r] := rfl
@[simp] theorem State.raise_toEngine (s : State) (c : EngineError) :
    (s.raise c).toEngine = s.toEngine.faultEntry c := rfl
@[simp] theorem State.raise_inputs (s : State) (c : EngineError) :
    (s.raise c).inputs = s.inputs := rfl
@[simp] theorem State.raise_responses (s : State) (c : EngineError) :
    (s.raise c).responses = s.responses ++ [responseWord (s.toEngine.faultEntry c).faulted 0x00] := rfl
@[simp] theorem State.ignore_toEngine (s : State) :
    (s.ignore).toEngine = s.toEngine := rfl
@[simp] theorem State.ignore_inputs (s : State) :
    (s.ignore).inputs = s.inputs := rfl
@[simp] theorem State.ignore_responses (s : State) :
    (s.ignore).responses = s.responses ++ [responseWord s.faulted 0x00] := rfl
@[simp] theorem State.softReset_toEngine (s : State) :
    (s.softReset).toEngine = Engine.reset := rfl
@[simp] theorem State.softReset_inputs (s : State) :
    (s.softReset).inputs = s.inputs := rfl
@[simp] theorem State.softReset_responses (s : State) :
    (s.softReset).responses = s.responses ++ [0x0000] := rfl
@[simp] theorem State.hardwareReset_toEngine (s : State) :
    (s.hardwareReset).toEngine = Engine.reset := rfl
@[simp] theorem State.hardwareReset_inputs (s : State) :
    (s.hardwareReset).inputs = s.inputs := rfl
@[simp] theorem State.hardwareReset_responses (s : State) :
    (s.hardwareReset).responses = s.responses := rfl

end Sys2Proof.Machine
end

