-- ==== Sys2Proof/Laws/Ops.lean ====
section
/-!
SUPPORT. For each shared operation, what it can do, said once: the tests of 60_exceptions.md rule R177, the
pushes, the bytes of a block, the response word, and what every command answers.
-/

namespace Sys2Proof.Machine

theorem Engine.faulted_iff (e : Engine) : e.faulted = true ↔ e.err ≠ 0x00 := by
  simp [Engine.faulted]

theorem Engine.not_faulted_iff (e : Engine) : e.faulted = false ↔ e.err = 0x00 := by
  simp [Engine.faulted]

theorem EngineError.code_ne_zero (c : EngineError) : c.code ≠ 0x00 := by
  cases c <;> decide

@[simp] theorem Engine.faultEntry_faulted (e : Engine) (c : EngineError) :
    (e.faultEntry c).faulted = true :=
  (Engine.faulted_iff _).2 c.code_ne_zero

@[simp] theorem Engine.reset_faulted : Engine.reset.faulted = false := rfl

/-! The response word (30_encoding.md rule R53). -/

@[simp] theorem responseWord_fault (f : Bool) (d : Byte) : responseFault (responseWord f d) = f := by
  revert f d; decide

@[simp] theorem responseWord_data (f : Bool) (d : Byte) : responseData (responseWord f d) = d := by
  revert f d; decide

/-! The tests, in the order of rule R177. -/

theorem inModes_faulted {rule : ModeRule} {body : State → Result} {s : State} (h : s.err ≠ 0x00) :
    inModes rule body s = .next s.ignore := by
  simp [inModes, (Engine.faulted_iff _).2 h]

theorem inModes_allowed {rule : ModeRule} {body : State → Result} {s : State} (h : s.err = 0x00)
    (ha : rule.allows s.mact = true) : inModes rule body s = body s := by
  simp [inModes, (Engine.not_faulted_iff _).2 h, ha]

theorem inModes_forbidden {rule : ModeRule} {body : State → Result} {s : State} (h : s.err = 0x00)
    (ha : rule.allows s.mact = false) : inModes rule body s = .next (s.raise .sequenceError) := by
  simp [inModes, (Engine.not_faulted_iff _).2 h, ha]

theorem inModes_next {rule : ModeRule} {body : State → Result} {s t : State}
    (h : inModes rule body s = .next t) :
    (s.err ≠ 0x00 ∧ t = s.ignore) ∨ (s.err = 0x00 ∧ rule.allows s.mact = true ∧ body s = .next t) ∨
      (s.err = 0x00 ∧ rule.allows s.mact = false ∧ t = s.raise .sequenceError) := by
  unfold inModes at h
  split at h
  case isTrue hf => exact .inl ⟨(Engine.faulted_iff _).1 hf, (Host.Outcome.next.inj h).symm⟩
  case isFalse hf =>
    have he := (Engine.not_faulted_iff _).1 (Bool.eq_false_iff.2 hf)
    split at h
    case isTrue ha => exact .inr (.inl ⟨he, ha, h⟩)
    case isFalse ha =>
      exact .inr (.inr ⟨he, Bool.eq_false_iff.2 ha, (Host.Outcome.next.inj h).symm⟩)

theorem requireKey_next {body : State → Result} {s t : State} (h : requireKey body s = .next t) :
    (s.kcnt.val = 16 ∧ body s = .next t) ∨ (s.kcnt.val ≠ 16 ∧ t = s.raise .invalidKeyLength) := by
  unfold requireKey at h
  split at h
  case isTrue hk => exact .inl ⟨hk, h⟩
  case isFalse hk => exact .inr ⟨hk, (Host.Outcome.next.inj h).symm⟩

theorem requireBlock_next {body : State → Result} {s t : State} (h : requireBlock body s = .next t) :
    (s.icnt.val = 16 ∧ body s = .next t) ∨ (s.icnt.val ≠ 16 ∧ t = s.raise .invalidBlockLength) := by
  unfold requireBlock at h
  split at h
  case isTrue hk => exact .inl ⟨hk, h⟩
  case isFalse hk => exact .inr ⟨hk, (Host.Outcome.next.inj h).symm⟩

theorem requireOutput_next {body : State → Result} {s t : State} (h : requireOutput body s = .next t) :
    (s.ovalid = true ∧ body s = .next t) ∨ (s.ovalid = false ∧ t = s.raise .noOutput) := by
  unfold requireOutput at h
  split at h
  case isTrue hk => exact .inl ⟨hk, h⟩
  case isFalse hk => exact .inr ⟨Bool.eq_false_iff.2 hk, (Host.Outcome.next.inj h).symm⟩

theorem appendMessage_next {d : Byte} {s t : State} {e : Engine}
    (h : appendMessage d s e = .next t) :
    e.icnt.val < 16 ∧ t = s.answer (e.storeMessage d) 0x00 := by
  unfold appendMessage at h
  split at h
  case isTrue hi => exact ⟨hi, (Host.Outcome.next.inj h).symm⟩
  case isFalse => cases h

/-! The pushes and the bytes of a block. -/

theorem countUp_val {c : Fin 18} (h : c.val < 16) : (countUp c).val = c.val + 1 := by
  simp [countUp, h]

theorem countUp_eq_add_one {c : Fin 18} (h : c.val < 16) : countUp c = c + 1 := by
  revert h; revert c; decide

theorem pushByte_below {reg : Block} {c : Fin 18} {d : Byte} (h : c.val < 16) :
    pushByte reg c d = (putByte reg c.val d, countUp c) := by
  simp [pushByte, h]

theorem pushByte_above {reg : Block} {c : Fin 18} {d : Byte} (h : 16 ≤ c.val) :
    pushByte reg c d = (reg, 17) := by
  simp [pushByte, Nat.not_lt.2 h]

theorem putByte_eq_set {b : Block} {i : Nat} {d : Byte} (h : i < 16) : putByte b i d = b.set i d := by
  simp [putByte, h]

theorem putByte_getElem {b : Block} {i j : Nat} {d : Byte} (hj : j < 16) :
    (putByte b i d)[j] = if i = j then d else b[j] := by
  unfold putByte
  split
  case isTrue h => exact Vector.getElem_set h hj
  case isFalse h => rw [if_neg (by omega)]

@[simp] theorem blockZero_getElem {i : Nat} (h : i < 16) : Block.zero[i] = 0x00 :=
  Vector.getElem_replicate h

@[simp] theorem blockXor_getElem {a b : Block} {i : Nat} (h : i < 16) :
    (blockXor a b)[i] = a[i] ^^^ b[i] :=
  Vector.getElem_ofFn h

/-! What every command answers: the input cycles are kept and one response is appended. -/

theorem inModes_answers {rule : ModeRule} {body : State → Result} {s t : State}
    (hb : ∀ t, body s = .next t → ∃ e r, t = s.answer e r) (h : inModes rule body s = .next t) :
    ∃ e r, t = s.answer e r := by
  obtain ⟨-, rfl⟩ | ⟨-, -, h⟩ | ⟨-, -, rfl⟩ := inModes_next h
  · exact ⟨_, _, rfl⟩
  · exact hb t h
  · exact ⟨_, _, rfl⟩

theorem requireKey_answers {body : State → Result} {s t : State}
    (hb : ∀ t, body s = .next t → ∃ e r, t = s.answer e r) (h : requireKey body s = .next t) :
    ∃ e r, t = s.answer e r := by
  obtain ⟨-, h⟩ | ⟨-, rfl⟩ := requireKey_next h
  · exact hb t h
  · exact ⟨_, _, rfl⟩

theorem requireBlock_answers {body : State → Result} {s t : State}
    (hb : ∀ t, body s = .next t → ∃ e r, t = s.answer e r) (h : requireBlock body s = .next t) :
    ∃ e r, t = s.answer e r := by
  obtain ⟨-, h⟩ | ⟨-, rfl⟩ := requireBlock_next h
  · exact hb t h
  · exact ⟨_, _, rfl⟩

theorem requireOutput_answers {body : State → Result} {s t : State}
    (hb : ∀ t, body s = .next t → ∃ e r, t = s.answer e r) (h : requireOutput body s = .next t) :
    ∃ e r, t = s.answer e r := by
  obtain ⟨-, h⟩ | ⟨-, rfl⟩ := requireOutput_next h
  · exact hb t h
  · exact ⟨_, _, rfl⟩

theorem next_answers {s t : State} {e : Engine} {r : Byte}
    (h : (Host.Outcome.next (s.answer e r) : Result) = .next t) : ∃ e r, t = s.answer e r :=
  ⟨e, r, (Host.Outcome.next.inj h).symm⟩

/-- Whatever a command does, it ends in an answer (20_memory.md rule R44). -/
theorem exec_answers {i : Instr} {s t : State} (h : exec i s = .next t) : ∃ e r, t = s.answer e r := by
  cases i <;> simp only [exec, execNop, execSrst, execClrk, execClrd, execKpush, execDpush, execMpush,
    execEnc, execMinit, execMfinal, execMabort, execRdout, execRdstat, execRderr] at h
  case srst => exact next_answers (e := Engine.reset) (r := 0x00) h
  case rdstat | rderr => exact next_answers h
  case mpush d => exact inModes_answers (fun _ h => ⟨_, _, (appendMessage_next h).2⟩) h
  case enc =>
    exact inModes_answers (fun _ => requireKey_answers fun _ => requireBlock_answers fun _ =>
      next_answers) h
  case minit => exact inModes_answers (fun _ => requireKey_answers fun _ => next_answers) h
  case mfinal =>
    refine inModes_answers (fun t h => ?_) h
    split at h
    · exact next_answers h
    · cases h
  case rdout idx => exact inModes_answers (fun _ => requireOutput_answers fun _ => next_answers) h
  all_goals exact inModes_answers (fun _ => next_answers) h

end Sys2Proof.Machine
end

