-- ==== Sys2Proof/Laws/Exec.lean ====
section
/-!
SUPPORT. What each command can do, said once: if it answers a next state, which one, and under which
tests of 60_exceptions.md rule R177.
-/

namespace Sys2Proof.Machine

theorem execNop_next {s t : State} (h : execNop s = .next t) : t = s.answer s.toEngine 0x00 := by
  obtain ⟨-, rfl⟩ | ⟨-, -, h⟩ | ⟨-, ha, -⟩ := inModes_next h
  · rfl
  · exact (Host.Outcome.next.inj h).symm
  · cases ha

theorem execSrst_next {s t : State} (h : execSrst s = .next t) : t = s.softReset :=
  (Host.Outcome.next.inj h).symm

theorem execClrk_next {s t : State} (h : execClrk s = .next t) :
    (s.err ≠ 0x00 ∧ t = s.ignore) ∨
      (s.err = 0x00 ∧ s.mact = false ∧ t = s.answer s.toEngine.clearKey 0x00) ∨
      (s.err = 0x00 ∧ s.mact = true ∧ t = s.raise .sequenceError) := by
  obtain h | ⟨he, ha, h⟩ | ⟨he, ha, h⟩ := inModes_next h
  · exact .inl h
  · exact .inr (.inl ⟨he, by simpa [ModeRule.allows] using ha, (Host.Outcome.next.inj h).symm⟩)
  · exact .inr (.inr ⟨he, by simpa [ModeRule.allows] using ha, h⟩)

theorem execClrd_next {s t : State} (h : execClrd s = .next t) :
    (s.err ≠ 0x00 ∧ t = s.ignore) ∨
      (s.err = 0x00 ∧ s.mact = false ∧ t = s.answer s.toEngine.clearInput 0x00) ∨
      (s.err = 0x00 ∧ s.mact = true ∧ t = s.raise .sequenceError) := by
  obtain h | ⟨he, ha, h⟩ | ⟨he, ha, h⟩ := inModes_next h
  · exact .inl h
  · exact .inr (.inl ⟨he, by simpa [ModeRule.allows] using ha, (Host.Outcome.next.inj h).symm⟩)
  · exact .inr (.inr ⟨he, by simpa [ModeRule.allows] using ha, h⟩)

theorem execKpush_next {d : Byte} {s t : State} (h : execKpush d s = .next t) :
    (s.err ≠ 0x00 ∧ t = s.ignore) ∨
      (s.err = 0x00 ∧ s.mact = false ∧ t = s.answer (s.toEngine.pushKey d) 0x00) ∨
      (s.err = 0x00 ∧ s.mact = true ∧ t = s.raise .sequenceError) := by
  obtain h | ⟨he, ha, h⟩ | ⟨he, ha, h⟩ := inModes_next h
  · exact .inl h
  · exact .inr (.inl ⟨he, by simpa [ModeRule.allows] using ha, (Host.Outcome.next.inj h).symm⟩)
  · exact .inr (.inr ⟨he, by simpa [ModeRule.allows] using ha, h⟩)

theorem execDpush_next {d : Byte} {s t : State} (h : execDpush d s = .next t) :
    (s.err ≠ 0x00 ∧ t = s.ignore) ∨
      (s.err = 0x00 ∧ s.mact = false ∧ t = s.answer (s.toEngine.pushInput d) 0x00) ∨
      (s.err = 0x00 ∧ s.mact = true ∧ t = s.raise .sequenceError) := by
  obtain h | ⟨he, ha, h⟩ | ⟨he, ha, h⟩ := inModes_next h
  · exact .inl h
  · exact .inr (.inl ⟨he, by simpa [ModeRule.allows] using ha, (Host.Outcome.next.inj h).symm⟩)
  · exact .inr (.inr ⟨he, by simpa [ModeRule.allows] using ha, h⟩)

theorem execMpush_next {d : Byte} {s t : State} (h : execMpush d s = .next t) :
    (s.err ≠ 0x00 ∧ t = s.ignore) ∨
      (s.err = 0x00 ∧ s.mact = true ∧ s.toEngine.absorbIfFull.icnt.val < 16 ∧
        t = s.answer (s.toEngine.absorbIfFull.storeMessage d) 0x00) ∨
      (s.err = 0x00 ∧ s.mact = false ∧ t = s.raise .sequenceError) := by
  obtain h | ⟨he, ha, h⟩ | ⟨he, ha, h⟩ := inModes_next h
  · exact .inl h
  · exact .inr (.inl ⟨he, ha, appendMessage_next h⟩)
  · exact .inr (.inr ⟨he, ha, h⟩)

theorem execEnc_next {s t : State} (h : execEnc s = .next t) :
    (s.err ≠ 0x00 ∧ t = s.ignore) ∨
      (s.err = 0x00 ∧ s.mact = false ∧ s.kcnt.val = 16 ∧ s.icnt.val = 16 ∧
        t = s.answer s.toEngine.encrypt 0x00) ∨
      (s.err = 0x00 ∧ s.mact = true ∧ t = s.raise .sequenceError) ∨
      (s.err = 0x00 ∧ s.mact = false ∧ s.kcnt.val ≠ 16 ∧ t = s.raise .invalidKeyLength) ∨
      (s.err = 0x00 ∧ s.mact = false ∧ s.kcnt.val = 16 ∧ s.icnt.val ≠ 16 ∧
        t = s.raise .invalidBlockLength) := by
  obtain h | ⟨he, ha, h⟩ | ⟨he, ha, h⟩ := inModes_next h
  · exact .inl h
  · have hm : s.mact = false := by simpa [ModeRule.allows] using ha
    obtain ⟨hk, h⟩ | ⟨hk, h⟩ := requireKey_next h
    · obtain ⟨hi, h⟩ | ⟨hi, h⟩ := requireBlock_next h
      · exact .inr (.inl ⟨he, hm, hk, hi, (Host.Outcome.next.inj h).symm⟩)
      · exact .inr (.inr (.inr (.inr ⟨he, hm, hk, hi, h⟩)))
    · exact .inr (.inr (.inr (.inl ⟨he, hm, hk, h⟩)))
  · exact .inr (.inr (.inl ⟨he, by simpa [ModeRule.allows] using ha, h⟩))

theorem execMinit_next {s t : State} (h : execMinit s = .next t) :
    (s.err ≠ 0x00 ∧ t = s.ignore) ∨
      (s.err = 0x00 ∧ s.mact = false ∧ s.kcnt.val = 16 ∧ t = s.answer s.toEngine.openMac 0x00) ∨
      (s.err = 0x00 ∧ s.mact = true ∧ t = s.raise .sequenceError) ∨
      (s.err = 0x00 ∧ s.mact = false ∧ s.kcnt.val ≠ 16 ∧ t = s.raise .invalidKeyLength) := by
  obtain h | ⟨he, ha, h⟩ | ⟨he, ha, h⟩ := inModes_next h
  · exact .inl h
  · have hm : s.mact = false := by simpa [ModeRule.allows] using ha
    obtain ⟨hk, h⟩ | ⟨hk, h⟩ := requireKey_next h
    · exact .inr (.inl ⟨he, hm, hk, (Host.Outcome.next.inj h).symm⟩)
    · exact .inr (.inr (.inr ⟨he, hm, hk, h⟩))
  · exact .inr (.inr (.inl ⟨he, by simpa [ModeRule.allows] using ha, h⟩))

theorem execMfinal_next {s t : State} (h : execMfinal s = .next t) :
    (s.err ≠ 0x00 ∧ t = s.ignore) ∨
      (s.err = 0x00 ∧ s.mact = true ∧ s.icnt.val ≤ 16 ∧ t = s.answer s.toEngine.closeMac 0x00) ∨
      (s.err = 0x00 ∧ s.mact = false ∧ t = s.raise .sequenceError) := by
  obtain h | ⟨he, ha, h⟩ | ⟨he, ha, h⟩ := inModes_next h
  · exact .inl h
  · split at h
    case isTrue hi => exact .inr (.inl ⟨he, ha, hi, (Host.Outcome.next.inj h).symm⟩)
    case isFalse => cases h
  · exact .inr (.inr ⟨he, ha, h⟩)

theorem execMabort_next {s t : State} (h : execMabort s = .next t) :
    (s.err ≠ 0x00 ∧ t = s.ignore) ∨ (s.err = 0x00 ∧ t = s.answer s.toEngine.dropMac 0x00) := by
  obtain h | ⟨he, -, h⟩ | ⟨-, ha, -⟩ := inModes_next h
  · exact .inl h
  · exact .inr ⟨he, (Host.Outcome.next.inj h).symm⟩
  · cases ha

theorem execRdout_next {idx : BitVec 4} {s t : State} (h : execRdout idx s = .next t) :
    (s.err ≠ 0x00 ∧ t = s.ignore) ∨
      (s.err = 0x00 ∧ s.ovalid = true ∧ t = s.answer s.toEngine (s.toEngine.resultByte idx)) ∨
      (s.err = 0x00 ∧ s.ovalid = false ∧ t = s.raise .noOutput) := by
  obtain h | ⟨he, -, h⟩ | ⟨-, ha, -⟩ := inModes_next h
  · exact .inl h
  · obtain ⟨ho, h⟩ | ⟨ho, h⟩ := requireOutput_next h
    · exact .inr (.inl ⟨he, ho, (Host.Outcome.next.inj h).symm⟩)
    · exact .inr (.inr ⟨he, ho, h⟩)
  · cases ha

theorem execRdstat_next {s t : State} (h : execRdstat s = .next t) :
    t = s.answer s.toEngine s.status :=
  (Host.Outcome.next.inj h).symm

theorem execRderr_next {s t : State} (h : execRderr s = .next t) : t = s.answer s.toEngine s.err :=
  (Host.Outcome.next.inj h).symm

end Sys2Proof.Machine
end

