-- ==== Sys2Proof/Laws/PerInstr.lean ====
section
/-!
SUPPORT. A law per command: the word the encoder gives it matches the row of rule R52's table that bears
its mnemonic (30_encoding.md rule R52).
-/

namespace Sys2Proof.Laws.TableRow

/-- The word of `i` matches a row of the opcode table, and the row's mnemonic is that of `i`. -/
def Statement (i : Instr) : Prop :=
  ∃ row ∈ opcodeTable, row.mnemonic = i.mnemonic ∧ row.matchesWord (encode i) = true

theorem nop : Statement .nop :=
  ⟨⟨"NOP", 0x00, .n, 0x0000, 0xFFFF⟩, by decide, rfl, by decide⟩

theorem srst : Statement .srst :=
  ⟨⟨"SRST", 0x01, .n, 0x0100, 0xFFFF⟩, by decide, rfl, by decide⟩

theorem clrk : Statement .clrk :=
  ⟨⟨"CLRK", 0x02, .n, 0x0200, 0xFFFF⟩, by decide, rfl, by decide⟩

theorem clrd : Statement .clrd :=
  ⟨⟨"CLRD", 0x03, .n, 0x0300, 0xFFFF⟩, by decide, rfl, by decide⟩

theorem kpush (data : Byte) : Statement (.kpush data) :=
  ⟨⟨"KPUSH", 0x10, .b, 0x1000, 0xFF00⟩, by decide, rfl, by revert data; decide⟩

theorem dpush (data : Byte) : Statement (.dpush data) :=
  ⟨⟨"DPUSH", 0x11, .b, 0x1100, 0xFF00⟩, by decide, rfl, by revert data; decide⟩

theorem mpush (data : Byte) : Statement (.mpush data) :=
  ⟨⟨"MPUSH", 0x12, .b, 0x1200, 0xFF00⟩, by decide, rfl, by revert data; decide⟩

theorem enc : Statement .enc :=
  ⟨⟨"ENC", 0x20, .n, 0x2000, 0xFFFF⟩, by decide, rfl, by decide⟩

theorem minit : Statement .minit :=
  ⟨⟨"MINIT", 0x21, .n, 0x2100, 0xFFFF⟩, by decide, rfl, by decide⟩

theorem mfinal : Statement .mfinal :=
  ⟨⟨"MFINAL", 0x22, .n, 0x2200, 0xFFFF⟩, by decide, rfl, by decide⟩

theorem mabort : Statement .mabort :=
  ⟨⟨"MABORT", 0x23, .n, 0x2300, 0xFFFF⟩, by decide, rfl, by decide⟩

theorem rdout (idx : BitVec 4) : Statement (.rdout idx) :=
  ⟨⟨"RDOUT", 0x30, .i, 0x3000, 0xFFF0⟩, by decide, rfl, by revert idx; decide⟩

theorem rdstat : Statement .rdstat :=
  ⟨⟨"RDSTAT", 0x31, .n, 0x3100, 0xFFFF⟩, by decide, rfl, by decide⟩

theorem rderr : Statement .rderr :=
  ⟨⟨"RDERR", 0x32, .n, 0x3200, 0xFFFF⟩, by decide, rfl, by decide⟩

end Sys2Proof.Laws.TableRow
end

