-- ==== Sys2Proof/Tests/Slice0.lean ====
section
/-!
SUPPORT. Tests on fixed values, each with the place of spec/ its expected value stands in, and for each
statement of Certificates/Slice0/Obligations.lean with hypotheses a witness: a concrete state and
operands that meet them together (`witness_<statement>`, or one witness for statements that share their
hypotheses). No expected value is the model's own answer.
-/

namespace Sys2Proof.Tests

set_option Elab.async false

open Sys2Proof Sys2Proof.Machine

/-! ## Small states -/

/-- The key `00 01 .. 0f` of 95_test_vectors.md 4.2 and P4. -/
def keyC1 : Block := blockOfNat 0x000102030405060708090a0b0c0d0e0f

/-- The block `00 11 .. ff` of 95_test_vectors.md 4.3. -/
def blockC1 : Block := blockOfNat 0x00112233445566778899aabbccddeeff

/-- The result of encrypting that block under that key (41_aes128_encrypt.md rule R100). -/
def resultC1 : Block := blockOfNat 0x69c4e0d86a7b0430d8cdb78070b4c55a

/-- An IDLE state with the counters given and the registers of P4 as full as they say. -/
def idle (kcnt icnt : Fin 18) : State :=
  { State.reset with
    kcnt := kcnt, icnt := icnt
    key := Vector.ofFn fun i => if i.val < kcnt.val then keyC1[i] else 0
    ibuf := Vector.ofFn fun i => if i.val < icnt.val then blockC1[i] else 0 }

/-- The IDLE state with a result and no block. -/
def withResult : State := { idle 16 0 with dout := resultC1, ovalid := true }

/-- MAC mode with `icnt` message bytes buffered; its subkeys are left as terms, so that nothing evaluates
the cipher. -/
def mac (icnt : Fin 18) : State :=
  { idle 16 icnt with
    mact := true
    k1 := dbl (aes128 (idle 16 icnt).key Block.zero)
    k2 := dbl (dbl (aes128 (idle 16 icnt).key Block.zero)) }

/-- A faulted engine, with the code given. -/
def faultedBy (c : Byte) : State := { State.reset with err := c }

/-- The next state, where there is one. -/
def nextOf : Result → Option State
  | .next t => some t
  | .fault _ => none
  | .refused _ => none

/-- The last response after issuing the words one after another from `s`, where no word stops. -/
def lastAnswer (ws : List CommandWord) (s : State) : Option ResponseWord :=
  (nextOf (issueAll ws s)).map lastResponse

/-- `ERR` after one word. -/
def errAfter (w : CommandWord) (s : State) : Option Byte := (nextOf (command w s)).map fun t => t.err

/-- What a host procedure returned, where it returned. -/
def hostAnswer : HostResult → Option (Except HostError (List Byte))
  | .next ⟨_, r⟩ => some r
  | .fault _ => none
  | .refused _ => none

/-- The error a host procedure failed with. -/
def errorOf : Except HostError (List Byte) → Option HostError
  | .ok _ => none
  | .error e => some e

/-! ## Well-formedness: what the checks refuse -/

/-- 95_test_vectors.md 4.1 "Illegal": an operand where format N has none. -/
theorem test_illFormed_operand : CommandWord.legal 0x0001 = false ∧ CommandWord.legal 0x2001 = false := by
  decide

/-- 95_test_vectors.md 4.1 "Illegal": an opcode of no row. -/
theorem test_illFormed_opcode : CommandWord.legal 0x0400 = false ∧ CommandWord.legal 0x1300 = false := by
  decide

/-- 95_test_vectors.md 4.1 "Illegal": `RDOUT` with `arg[7:4]` not 0. -/
theorem test_illFormed_index : CommandWord.legal 0x3010 = false ∧ CommandWord.legal 0x30ff = false := by
  decide

/-- Rule R51's bounds: every value of an operand type is within them. -/
theorem test_wf_operands : (Instr.kpush 0xff).wf = true ∧ (Instr.rdout 15).wf = true := by decide

/-- Rules R143 to R145: a macro over a key or block that is not 16 bytes is refused. -/
theorem test_illFormed_macro :
    (HostMacro.loadKey (List.replicate 15 0)).wf = false ∧
    (HostMacro.encryptBlock (List.replicate 16 0) (List.replicate 17 0)).wf = false ∧
    (HostMacro.cmac (List.replicate 17 0) []).wf = false := by decide

/-! ## Decoding: words written out bit by bit from rules R50 to R52 (`op | arg`), the values of
95_test_vectors.md 4.1 -/

theorem test_decode_nop : decode 0b00000000_00000000 = .ok .nop := by decide
theorem test_decode_srst : decode 0b00000001_00000000 = .ok .srst := by decide
theorem test_decode_clrk : decode 0b00000010_00000000 = .ok .clrk := by decide
theorem test_decode_clrd : decode 0b00000011_00000000 = .ok .clrd := by decide
theorem test_decode_kpush : decode 0b00010000_11111111 = .ok (.kpush 0xff) := by decide
theorem test_decode_dpush : decode 0b00010001_00101011 = .ok (.dpush 0x2b) := by decide
theorem test_decode_mpush : decode 0b00010010_10000000 = .ok (.mpush 0x80) := by decide
theorem test_decode_enc : decode 0b00100000_00000000 = .ok .enc := by decide
theorem test_decode_minit : decode 0b00100001_00000000 = .ok .minit := by decide
theorem test_decode_mfinal : decode 0b00100010_00000000 = .ok .mfinal := by decide
theorem test_decode_mabort : decode 0b00100011_00000000 = .ok .mabort := by decide
theorem test_decode_rdout : decode 0b00110000_00001111 = .ok (.rdout 15) := by decide
theorem test_decode_rdstat : decode 0b00110001_00000000 = .ok .rdstat := by decide
theorem test_decode_rderr : decode 0b00110010_00000000 = .ok .rderr := by decide

/-- Rule R54's clauses, at the first word past each legal range (95_test_vectors.md 4.1 "Illegal"). -/
theorem test_decode_illegal :
    decode 0x0400 = .error .unknownOpcode ∧ decode 0xffff = .error .unknownOpcode ∧
    decode 0x0001 = .error .operandNotZero ∧ decode 0x3101 = .error .operandNotZero ∧
    decode 0x3010 = .error .indexBitsNotZero ∧ decode 0x30ff = .error .indexBitsNotZero := by decide

/-- The host's view of the table: the low 16 bits are the word (spec/opcode_table.json). -/
theorem test_decodeTableWord :
    decodeTableWord 16 0x102b = some (.kpush 0x2b) ∧ decodeTableWord 16 0x0400 = none := by decide

/-! ## Commands: 95_test_vectors.md 4.2 to 4.5 -/

/-- 4.2: NOP at reset answers `0000`; rule R71: `0100` while faulted. -/
theorem test_nop : lastAnswer [0x0000] State.reset = some 0x0000 ∧
    lastAnswer [0x0000] (faultedBy 5) = some 0x0100 := by decide +kernel

/-- 4.2: SRST from `ERR = 01` answers `0000` and leaves the reset state. -/
theorem test_srst : lastAnswer [0x0100] (faultedBy 1) = some 0x0000 ∧
    (nextOf (command 0x0100 (faultedBy 1))).map (fun t => t.err) = some 0x00 := by decide +kernel

/-- 4.2: CLRK with `KCNT = 16` and a result: the key goes, the result stays. -/
theorem test_clrk : (nextOf (command 0x0200 withResult)).map
    (fun t => (t.key, t.kcnt, t.dout, t.ovalid)) = some (Block.zero, 0, resultC1, true) := by
  decide +kernel

/-- 4.2: CLRD with `ICNT = 17`. -/
theorem test_clrd : (nextOf (command 0x0300 (idle 16 17))).map
    (fun t => (t.ibuf, t.icnt, t.kcnt)) = some (Block.zero, 0, 16) := by decide +kernel

/-- 4.2: the sixteenth key byte, then RDSTAT `0001`. -/
theorem test_kpush_last : (nextOf (command 0x100f (idle 15 0))).map (fun t => (t.key, t.kcnt)) =
      some (keyC1, 16) ∧
    lastAnswer [0x100f, 0x3100] (idle 15 0) = some 0x0001 := by decide +kernel

/-- 4.2: the seventeenth and eighteenth key bytes are discarded and `KCNT` stays 17. -/
theorem test_kpush_overflow :
    (nextOf (command 0x1055 (idle 16 0))).map (fun t => (t.key, t.kcnt)) = some (keyC1, 17) ∧
    (nextOf (command 0x1066 (idle 17 0))).map (fun t => (t.key, t.kcnt)) = some (keyC1, 17) := by
  decide +kernel

/-- 4.2: the sixteenth data byte. -/
theorem test_dpush_last : (nextOf (command 0x11ff (idle 0 15))).map (fun t => (t.ibuf, t.icnt)) =
    some (blockC1, 16) := by decide +kernel

/-- 4.2: the seventeenth data byte, then RDSTAT `0001` with the key complete. -/
theorem test_dpush_overflow :
    (nextOf (command 0x1177 (idle 16 16))).map (fun t => (t.ibuf, t.icnt)) = some (blockC1, 17) ∧
    lastAnswer [0x1177, 0x3100] (idle 16 16) = some 0x0001 := by decide +kernel

/-- 4.2: RDOUT 0, 2 and 15 of the published result. -/
theorem test_rdout : lastAnswer [0x3000] withResult = some 0x0069 ∧
    lastAnswer [0x3002] withResult = some 0x00e0 ∧
    lastAnswer [0x300f, 0x300f] withResult = some 0x005a := by decide +kernel

/-- 4.5: RDOUT with no result faults with 05; 4.4: so does RDOUT in MAC mode. -/
theorem test_rdout_noOutput : lastAnswer [0x3000, 0x3200] State.reset = some 0x0105 ∧
    errAfter 0x3000 (mac 0) = some 0x05 := by decide +kernel

/-- 4.2 and 4.4: RDSTAT with key and block, with a result, with a CMAC open, with its buffer full. -/
theorem test_rdstat : lastAnswer [0x3100] (idle 16 16) = some 0x0003 ∧
    lastAnswer [0x3100] withResult = some 0x0005 ∧ lastAnswer [0x3100] (mac 7) = some 0x0009 ∧
    lastAnswer [0x3100] (mac 16) = some 0x000b ∧
    lastAnswer [0x3100] (faultedBy 5) = some 0x0180 := by decide +kernel

/-- 4.5: RDERR at reset and after an illegal word. -/
theorem test_rderr : lastAnswer [0x3200] State.reset = some 0x0000 ∧
    lastAnswer [0xffff, 0x3200] State.reset = some 0x0103 := by decide +kernel

/-- 4.3, first row: ENC of the published example, the buffer emptied, the key kept. -/
theorem test_enc : (nextOf (command 0x2000 (idle 16 16))).map
    (fun t => (t.dout, t.ovalid, t.ibuf, t.icnt, t.key)) =
      some (resultC1, true, Block.zero, 0, keyC1) := by decide +kernel

/-- 4.3 "Corner cases of ENC": the length errors, the key first. -/
theorem test_enc_lengths : errAfter 0x2000 (idle 16 15) = some 0x01 ∧
    errAfter 0x2000 (idle 16 17) = some 0x01 ∧ errAfter 0x2000 (idle 16 0) = some 0x01 ∧
    errAfter 0x2000 (idle 15 16) = some 0x02 ∧ errAfter 0x2000 (idle 17 16) = some 0x02 ∧
    errAfter 0x2000 (idle 0 0) = some 0x02 ∧ errAfter 0x2000 (mac 16) = some 0x04 := by decide +kernel

/-- 4.4: MINIT drops two stray data bytes and the earlier result. -/
theorem test_minit : (nextOf (command 0x2100 { withResult with icnt := 2 })).map
    (fun t => (t.mact, t.ibuf, t.icnt, t.dout, t.ovalid)) =
      some (true, Block.zero, 0, Block.zero, false) := by decide +kernel

/-- 4.4: MINIT without a key, with 17 key bytes, and with a CMAC open. -/
theorem test_minit_errors : errAfter 0x2100 (idle 0 0) = some 0x02 ∧
    errAfter 0x2100 (idle 17 0) = some 0x02 ∧ errAfter 0x2100 (mac 0) = some 0x04 := by decide +kernel

/-- 4.4 "State walk": the seventeenth message byte becomes `IBUF[0]` and `ICNT` 1; the sixteenth is
only buffered. -/
theorem test_mpush : (nextOf (command 0x12ae (mac 16))).map (fun t => (t.ibuf, t.icnt)) =
      some (blockOfNat 0xae000000000000000000000000000000, 1) ∧
    (nextOf (command 0x12ff (mac 15))).map (fun t => (t.ibuf, t.icnt, t.x)) =
      some (blockC1, 16, Block.zero) := by decide +kernel

/-- 4.4: MPUSH in IDLE mode. -/
theorem test_mpush_idle : errAfter 0x1201 (idle 16 0) = some 0x04 := by decide +kernel

/-- Section 3, example 1, from the subkey it prints: the empty message takes `K2` and pads with `80`. -/
theorem test_mfinal_empty :
    (nextOf (command 0x2200 { mac 0 with
      key := blockOfNat 0x2b7e151628aed2a6abf7158809cf4f3c
      k2 := blockOfNat 0xf7ddac306ae266ccf90bc11ee46d513b })).map
        (fun t => (t.dout, t.ovalid, t.mact, t.k2)) =
      some (blockOfNat 0xbb1d6929e95937287fa37d129b756746, true, false, Block.zero) := by decide +kernel

/-- 4.4: MFINAL in IDLE mode. -/
theorem test_mfinal_idle : errAfter 0x2200 (idle 16 0) = some 0x04 := by decide +kernel

/-- 4.4: MABORT in MAC mode keeps the key, in IDLE mode the result. -/
theorem test_mabort : lastAnswer [0x2300, 0x3100] (mac 7) = some 0x0001 ∧
    (nextOf (command 0x2300 { withResult with icnt := 3 })).map (fun t => (t.icnt, t.dout, t.ovalid)) =
      some (0, resultC1, true) := by decide +kernel

/-- 4.4: KPUSH, DPUSH, CLRK, CLRD in MAC mode; and an illegal word wins over the mode. -/
theorem test_macForbids : errAfter 0x1000 (mac 0) = some 0x04 ∧ errAfter 0x1100 (mac 0) = some 0x04 ∧
    errAfter 0x0200 (mac 0) = some 0x04 ∧ errAfter 0x0300 (mac 0) = some 0x04 ∧
    errAfter 0x0400 (mac 0) = some 0x03 := by decide +kernel

/-- 4.5 "Zeroisation on fault": the illegal word `0001` with key and result loaded. -/
theorem test_faultEntry : (nextOf (command 0x0001 withResult)).map
    (fun t => (t.toEngine, t.responses)) =
      some ({ Engine.reset with err := 0x03 }, [0x0100]) := by decide +kernel

/-- 4.5: while faulted NOP, KPUSH and an illegal word change nothing; the first code stays. -/
theorem test_faultSticks : errAfter 0x0000 (faultedBy 5) = some 0x05 ∧
    errAfter 0x1001 (faultedBy 5) = some 0x05 ∧ errAfter 0xffff (faultedBy 5) = some 0x05 := by
  decide +kernel

/-- 70_reset_and_hazards.md rule R190: a word offered while reset is asserted is not issued. -/
theorem test_hardwareReset : (nextOf (step { withResult with
      inputs := [⟨false, true, 0x3000⟩] })).map (fun t => (t.toEngine, t.responses)) =
    some (Engine.reset, []) := by decide +kernel

/-- The host's check: the word placed for fetching is the one the next step runs. -/
theorem test_withFetchWord : (nextOf (step (State.reset.withFetchWord 16 0x102b))).map
    (fun t => (t.kcnt, t.inputs, t.responses)) = some (1, [], [0x0000]) := by decide +kernel

/-! ## The functions -/

/-- 41_aes128_encrypt.md rules R93, R94 and R95: round 1 of the example of 95_test_vectors.md 2.3. -/
theorem test_roundOne :
    subBytes (blockOfNat 0x00102030405060708090a0b0c0d0e0f0) =
      blockOfNat 0x63cab7040953d051cd60e0e7ba70e18c ∧
    shiftRows (blockOfNat 0x63cab7040953d051cd60e0e7ba70e18c) =
      blockOfNat 0x6353e08c0960e104cd70b751bacad0e7 ∧
    mixColumns (blockOfNat 0x6353e08c0960e104cd70b751bacad0e7) =
      blockOfNat 0x5f72641557f5bc92f7be3b291db9f91a := by decide +kernel

/-- 42_cmac.md rule R121: the five examples of doubling. -/
theorem test_dbl : dbl Block.zero = Block.zero ∧
    dbl (blockOfNat 0x80000000000000000000000000000000) = blockOfNat 0x87 ∧
    dbl (blockOfNat 0x80) = blockOfNat 0x0100 ∧
    dbl (blockOfNat 0xffffffffffffffffffffffffffffffff) =
      blockOfNat 0xffffffffffffffffffffffffffffff79 ∧
    dbl (blockOfNat 0x7fffffffffffffffffffffffffffffff) =
      blockOfNat 0xfffffffffffffffffffffffffffffffe := by decide +kernel

/-- The address of 95_test_vectors.md 1.1. -/
def fixtureAddr : Vector Byte 4 := #v[0x26, 0x0b, 0x7a, 0xc6]

/-- 95_test_vectors.md 1.3: `A_1`, `B0` and the header of the fixture. -/
theorem test_fixtureBlocks :
    counterBlock fixtureAddr 10 .uplink 1 = blockOfNat 0x010000000000c67a0b260a0000000001 ∧
    authBlock fixtureAddr 10 .uplink 20 = blockOfNat 0x490000000000c67a0b260a0000000014 ∧
    frameHeader fixtureAddr 10 1 = [0x40, 0xc6, 0x7a, 0x0b, 0x26, 0x00, 0x0a, 0x00, 0x01] := by
  decide +kernel

/-- 4.6 "Utilities". -/
theorem test_utilities : hexToBytes "260B7AC6" = some [0x26, 0x0b, 0x7a, 0xc6] ∧
    hexToBytes "260" = none ∧ intToLE 0x12345678 4 = [0x78, 0x56, 0x34, 0x12] ∧
    intToLE 0xffff 2 = [0xff, 0xff] := by decide +kernel

/-- 4.6: the payload of the fixture, encrypted. -/
theorem test_encryptPayload :
    (encryptPayload [0x48, 0x45, 0x4c, 0x4c, 0x4f, 0x57, 0x4f, 0x52, 0x4c, 0x44, 0x21]
      (blockOfNat 0x2e1b2e2e88363e2216485ba8fdc2cc14) fixtureAddr 10 .uplink).toOption =
    some [0xc8, 0x27, 0x45, 0x52, 0xdf, 0x51, 0x1c, 0x4e, 0x03, 0x8c, 0x11] := by decide +kernel

/-! ## Witnesses: states and operands that meet the hypotheses of each statement -/

theorem witness_EncodedCommandsDecodeBack : (Instr.mpush 0xff).wf = true ∧ (Instr.rdout 15).wf = true := by
  decide

theorem witness_DecodedWordsEncodeBack : decode 0x300f = .ok (.rdout 15) := by decide

theorem witness_DecoderFollowsOpcodeTable :
    ⟨"RDOUT", 0x30, .i, 0x3000, 0xFFF0⟩ ∈ opcodeTable ∧
    (0x300f : CommandWord) &&& 0xFFF0 = 0x3000 := by decide

/-- Each clause of rule R54 has a word of its own. -/
theorem witness_IllegalWordsByClause :
    decode 0x3300 = .error .unknownOpcode ∧ decode 0x2001 = .error .operandNotZero ∧
    decode 0x3010 = .error .indexBitsNotZero := by decide

theorem witness_StepRunsDecodedCommand :
    (State.reset.withFetchWord 16 0x102b).inputs = ⟨true, true, 0x102b⟩ :: [] ∧
    decode 0x102b = .ok (.kpush 0x2b) := by decide

/-- Both clauses: not faulted (in MAC mode too) and faulted. -/
theorem witness_StepTakesIllegalCommand :
    ((mac 0).withFetchWord 16 0x0400).inputs = ⟨true, true, 0x0400⟩ :: [] ∧
    decode 0x0400 = .error .unknownOpcode ∧ ((mac 0).withFetchWord 16 0x0400).err = 0x00 ∧
    ((faultedBy 5).withFetchWord 16 0x0400).inputs = ⟨true, true, 0x0400⟩ :: [] ∧
    ((faultedBy 5).withFetchWord 16 0x0400).err ≠ 0x00 := by decide

theorem witness_HardwareResetOverrides :
    ({ mac 7 with inputs := [⟨false, true, 0x2200⟩] } : State).inputs = ⟨false, true, 0x2200⟩ :: [] ∧
    (⟨false, true, 0x2200⟩ : PortCycle).rstN = false := by decide

theorem witness_IdlePortKeepsState : State.reset.inputs = [] ∧
    ({ State.reset with inputs := [⟨true, false, 0x2000⟩] } : State).inputs =
      ⟨true, false, 0x2000⟩ :: [] := by decide

theorem witness_ResetValues :
    ({ State.reset with responses := [0x0000] } : State).toEngine = State.reset.toEngine := by decide

/-- A read that returns a byte, and a faulting command. -/
theorem witness_EveryCommandAnsweredOnce :
    lastAnswer [0x3002] withResult = some 0x00e0 ∧ (idle 16 0).err = 0x00 ∧
    errAfter 0x2000 (idle 16 0) = some 0x01 := by decide +kernel

theorem reset_inv : State.reset.toEngine.Inv := by constructor <;> decide +kernel

theorem faulted_inv : (faultedBy 5).toEngine.Inv := by constructor <;> decide +kernel

/-- An IDLE state that meets rule R24 with both counters at 17, and one with both at 15. -/
theorem idle_inv : (idle 17 17).toEngine.Inv ∧ (idle 15 15).toEngine.Inv := by
  constructor <;> constructor <;> decide +kernel

theorem withResult_inv : withResult.toEngine.Inv := by constructor <;> decide +kernel

theorem mac_subkeys (icnt : Fin 18) : (mac icnt).k1 = dbl (aes128 (mac icnt).key Block.zero) ∧
    (mac icnt).k2 = dbl (mac icnt).k1 := ⟨rfl, rfl⟩

/-- A MAC state that meets rule R24 with a full buffer, and one with 15 bytes in it. -/
theorem mac_inv : (mac 16).toEngine.Inv ∧ (mac 15).toEngine.Inv := by
  constructor <;>
    exact ⟨by decide +kernel, by decide +kernel, by decide +kernel, by decide +kernel,
      by decide +kernel, fun _ => ⟨by decide +kernel, by decide +kernel, by decide +kernel, mac_subkeys _⟩,
      by decide +kernel⟩

theorem witness_StepKeepsInvariant : (idle 17 17).toEngine.Inv ∧
    (nextOf (step ((idle 17 17).withFetchWord 16 0x2300))).isSome = true :=
  ⟨idle_inv.1, by decide +kernel⟩

theorem witness_InvariantStatesAlwaysStep : (mac 16).toEngine.Inv ∧ (faultedBy 5).toEngine.Inv ∧
    withResult.toEngine.Inv := ⟨mac_inv.1, faulted_inv, withResult_inv⟩

theorem witness_NopChangesNothing : (0x01 : Byte) ≠ 0x00 ∧
    decode 0x0001 = .error .operandNotZero := by decide

/-- IDLE and MAC, for CLRD, CLRK, ENC, MINIT, MPUSH, MFINAL and MABORT. -/
theorem witness_modes : (idle 16 5).err = 0x00 ∧ (idle 16 5).mact = false ∧ (mac 7).err = 0x00 ∧
    (mac 7).mact = true := by decide

/-- KPUSH's clauses at 15, 16 and 17. -/
theorem witness_KpushStoresKeyByte : (idle 15 0).kcnt.val < 16 ∧ 16 ≤ (idle 16 0).kcnt.val ∧
    16 ≤ (idle 17 0).kcnt.val ∧ (idle 17 0).err = 0x00 ∧ (idle 17 0).mact = false := by decide

/-- DPUSH's clauses at 15, 16 and 17. -/
theorem witness_DpushStoresBlockByte : (idle 0 15).icnt.val < 16 ∧ 16 ≤ (idle 0 16).icnt.val ∧
    16 ≤ (idle 0 17).icnt.val ∧ (idle 0 17).err = 0x00 ∧ (idle 0 17).mact = false := by decide

theorem witness_RdoutReadsResult : withResult.err = 0x00 ∧ withResult.ovalid = true ∧
    (mac 0).ovalid = false ∧ 0x10 ≤ (0x10 : Byte).toNat ∧ 0x10 ≤ (0xff : Byte).toNat := by decide

theorem witness_RdstatReadsStatus : (faultedBy 5).toEngine.Inv ∧ (faultedBy 5).err ≠ 0x00 :=
  ⟨faulted_inv, by decide⟩

/-- ENC's clauses: a CMAC open; the key at 15 and 17; the block at 15 and 17; both at 16. -/
theorem witness_EncEncryptsBlock : (mac 16).mact = true ∧ (idle 15 16).kcnt.val ≠ 16 ∧
    (idle 17 16).kcnt.val ≠ 16 ∧ (idle 16 15).icnt.val ≠ 16 ∧ (idle 16 17).icnt.val ≠ 16 ∧
    (idle 16 16).err = 0x00 ∧ (idle 16 16).mact = false ∧ (idle 16 16).kcnt.val = 16 ∧
    (idle 16 16).icnt.val = 16 := by decide

theorem witness_MinitOpensMac : (idle 16 2).err = 0x00 ∧ (idle 16 2).mact = false ∧
    (idle 16 2).kcnt.val = 16 ∧ (idle 17 2).kcnt.val ≠ 16 ∧ (mac 2).mact = true := by decide

/-- MPUSH's and MFINAL's clauses at 15 and 16. -/
theorem witness_MpushAppendsMessageByte : (mac 15).err = 0x00 ∧ (mac 15).mact = true ∧
    (mac 15).icnt.val < 16 ∧ (mac 16).icnt.val = 16 ∧ (idle 16 0).mact = false := by decide

theorem witness_MfinalWritesTag : (mac 0).err = 0x00 ∧ (mac 0).mact = true ∧ (mac 0).icnt.val < 16 ∧
    (mac 16).icnt.val = 16 ∧ (idle 16 0).mact = false := by decide

theorem witness_MacBufferOverrunStops : (mac 17).err = 0x00 ∧ (mac 17).mact = true ∧
    (mac 17).icnt.val = 17 := by decide

theorem witness_FaultingCommandZeroises : (idle 16 0).err = 0x00 ∧
    errAfter 0x2000 (idle 16 0) = some 0x01 := by decide +kernel

theorem witness_FaultedEngineIgnoresOthers : (faultedBy 5).toEngine.Inv ∧ (faultedBy 5).err ≠ 0x00 :=
  ⟨faulted_inv, by decide⟩

/-- Every branch of rule R177's order. -/
theorem witness_FirstTestDecidesError : errAfter 0x0100 (faultedBy 5) = some 0x00 ∧
    errAfter 0xffff (faultedBy 5) = some 0x05 ∧ errAfter 0x0400 (mac 0) = some 0x03 ∧
    errAfter 0x2000 (mac 0) = some 0x04 ∧ errAfter 0x2000 (idle 0 16) = some 0x02 ∧
    errAfter 0x2000 (idle 16 0) = some 0x01 ∧ errAfter 0x3000 (idle 16 0) = some 0x05 ∧
    errAfter 0x3000 withResult = some 0x00 := by decide +kernel

theorem witness_ModeDecidesLegality : (mac 16).err = 0x00 ∧
    (modeRuleOf .enc).allows (mac 16).mact = false ∧ (modeRuleOf (.rdout 0)).allows (mac 16).mact = true ∧
    (mac 16).mact = true ∧ (mac 16).toEngine.Inv :=
  ⟨by decide, by decide, by decide, by decide, mac_inv.1⟩

/-- A step that sets `ERR`, and one that clears it. -/
theorem witness_ErrKeepsFirstCode :
    (nextOf (step ((idle 16 0).withFetchWord 16 0x2000))).map (fun t => t.err) = some 0x01 ∧
    (nextOf (step ((faultedBy 5).withFetchWord 16 0x0100))).map (fun t => t.err) = some 0x00 := by
  decide +kernel

theorem witness_OnlyResetLeavesFaulted :
    ((faultedBy 5).withFetchWord 16 0x0100).inputs = ⟨true, true, 0x0100⟩ :: [] ∧
    ((faultedBy 5).withFetchWord 16 0x2100).inputs = ⟨true, true, 0x2100⟩ :: [] ∧
    ((faultedBy 5).withFetchWord 16 0x2100).err ≠ 0x00 := by decide

/-- A transition of each kind: to MAC, to FAULTED, to IDLE. -/
theorem witness_ModeTransitions :
    (nextOf (command 0x2300 (mac 0))).map (fun t => t.mode) = some .idle ∧
    (nextOf (command 0x2000 (mac 0))).map (fun t => t.mode) = some .faulted ∧
    (nextOf (command 0x1201 (mac 0))).map (fun t => t.mode) = some .mac ∧
    (⟨false, false, 0⟩ : PortCycle).rstN = false := by decide +kernel

theorem witness_RegistersHaveNamedWriters : (idle 15 0).err = 0x00 ∧
    errAfter 0x100f (idle 15 0) = some 0x00 ∧ writesInput (.kpush 0x0f) = false := by decide +kernel

/-- Two engines with different keys and the same readable state. -/
theorem witness_SecretsHaveNoReadPath :
    (idle 16 16).toEngine.SameReadable { idle 16 16 with key := Block.zero }.toEngine ∧
    (idle 16 16).key ≠ Block.zero ∧ (nextOf (command 0x3100 (idle 16 16))).isSome = true :=
  ⟨⟨rfl, rfl, rfl, rfl, rfl, rfl⟩, by decide +kernel, by decide +kernel⟩

theorem witness_KeyAndDataPushesCommute : (idle 15 16).err = 0x00 ∧ (idle 15 16).mact = false := by decide

theorem witness_StreamComputesCmac : (keyC1.toList).length = 16 ∧ (idle 17 5).err = 0x00 ∧
    (idle 17 5).mact = false := by decide

/-- The lengths on both sides of the block's test. -/
theorem witness_EncryptBlockMacro : (idle 16 0).kcnt.val = 16 ∧
    (idle 16 0).key = blockOfBytes keyC1.toList ∧ (keyC1.toList).length = 16 ∧ (blockC1.toList).length = 16 ∧
    (blockC1.toList.take 15).length ≠ 16 ∧ withResult.err = 0x00 ∧ withResult.mact = false := by decide +kernel

theorem witness_CmacMacro : (keyC1.toList).length = 16 ∧ withResult.err = 0x00 ∧
    withResult.mact = false := by decide

/-- The longest payload accepted, and the shortest refused. -/
theorem witness_PayloadCipher : (List.replicate 4080 (0 : Byte)).length ≤ 4080 ∧
    4080 < (List.replicate 4081 (0 : Byte)).length ∧ (keyC1.toList).length = 16 ∧
    (idle 17 0).err = 0x00 ∧ (idle 17 0).mact = false ∧ (idle 17 0).icnt.val = 0 := by decide +kernel

/-- 4.6: the four validation errors in their order, and lengths that pass; on the engine too. The
hypotheses of `ValidationOrder` are these lengths. -/
theorem witness_FrameAssemblyOnEngine :
    validateFrame [0, 0, 0] [] (List.replicate 15 0) (List.replicate 16 0) =
      some .invalidKeyLength ∧
    validateFrame [0, 0, 0] [] (List.replicate 16 0) (List.replicate 16 0) =
      some .invalidAddressLength ∧
    validateFrame [0, 0, 0, 0] (List.replicate 4081 0) (List.replicate 16 0) (List.replicate 16 0) =
      some .payloadTooLarge ∧
    validateFrame [0, 0, 0, 0] (List.replicate 247 0) (List.replicate 16 0) (List.replicate 16 0) =
      some .frameTooLarge ∧
    validateFrame [0, 0, 0, 0] (List.replicate 246 0) (List.replicate 16 0) (List.replicate 16 0) =
      none ∧
    State.reset.err = 0x00 ∧ State.reset.mact = false ∧ State.reset.icnt.val = 0 := by decide +kernel

/-- 95_test_vectors.md 4.6, N = 0: the header and four MIC bytes. -/
theorem witness_FrameLayout : ∃ frame,
    buildUplinkFrame [0x26, 0x0b, 0x7a, 0xc6] 10 1 [] (List.replicate 16 0) (List.replicate 16 0) =
      .ok frame := ⟨_, rfl⟩

theorem witness_FrameCommandCount : (List.replicate 16 (0 : Byte)).length = 16 ∧
    (List.replicate 20 (0 : Byte)).length = 9 + 11 := by decide

/-- 95_test_vectors.md P3: the frame of an 11-byte payload takes 105 commands. -/
theorem test_frameCommandCount : (frameCommands fixtureAddr 10 11 (List.replicate 20 0)
    (List.replicate 16 0) (List.replicate 16 0)).length = 105 := by decide +kernel

/-- 4.6: `fcnt = 0x00010000` has the header of `fcnt = 0` and another `A_1`. -/
theorem test_counterWidth : frameHeader fixtureAddr 0x00010000 1 = frameHeader fixtureAddr 0 1 ∧
    counterBlock fixtureAddr 0x00010000 .uplink 1 =
      blockOfNat 0x010000000000c67a0b26000001000001 := by decide +kernel

/-- The inverse of `0x53` (its S-box entry `0xed` is the affine map of it), for rules R91 and R92; a word of
the key schedule and a round key of each kind, for rules R98 and R99. -/
theorem witness_FieldLaws : (0x53 : Byte) ≠ 0x00 ∧ mul 0x53 0xca = 0x01 ∧ affine 0xca = 0xed ∧
    4 ≤ 43 ∧ 43 < 44 ∧ 43 % 4 ≠ 0 ∧ 40 % 4 = 0 := by decide +kernel

/-- The other way to meet the premise of the two driver statements: no payload, bytes in the buffer. -/
theorem witness_emptyPayload : (idle 16 5).err = 0x00 ∧ (idle 16 5).mact = false ∧
    (idle 16 5).icnt.val ≠ 0 ∧ ([] : List Byte).length ≤ 4080 ∧
    validateFrame [0, 0, 0, 0] [] (List.replicate 16 0) (List.replicate 16 0) = none := by
  decide +kernel

/-- 45_host_sequences.md rule R143: LOADKEY of 16 bytes, and of 15. -/
theorem test_hostLoadKey : (nextOf (issueAll ((loadKeyCommands keyC1.toList).map encode) (idle 17 5))).map
      (fun t => (t.key, t.kcnt, t.icnt)) = some (keyC1, 16, 5) ∧
    (hostAnswer (hostMacro (.loadKey (keyC1.toList.take 15)) (idle 17 5))).map errorOf =
      some (some .invalidKeyLength) := by decide +kernel

theorem witness_LoadKeyMacro : (keyC1.toList).length = 16 ∧ (keyC1.toList.take 15).length ≠ 16 ∧
    (keyC1.toList ++ [0x55]).length ≠ 16 ∧ (idle 17 5).err = 0x00 ∧ (idle 17 5).mact = false := by
  decide

theorem witness_HexPairsAreBytes : hexToBytes "F3" = some [0xf3] := by decide +kernel

theorem witness_IntegerBytesLeastFirst : 0 < 4 ∧ 0xffffffff < 2 ^ (8 * 4) := by decide

/-- A sequence whose ENC faults. -/
theorem witness_HostDiscardsAfterFault : errAfter (encode .enc) (idle 16 0) = some 0x01 ∧
    (hostAnswer (hostSequence [.enc, .rdout 0] [0x55] (idle 16 0))).map errorOf =
      some (some (.engineError 0x01)) := by decide +kernel

end Sys2Proof.Tests
end

section
/-!
PROOFS. The command words: a word that decodes to a command is the word the encoder gives that command
(30_encoding.md rules R50 to R52).
-/

namespace Sys2Proof.Machine

/-- Format N: the encoder's word with operand `0x00` is the one word the decoder takes. -/
theorem encode_of_decodeN {i j : Instr} {op arg : Byte} (hi : encode i = commandWord op 0x00)
    (h : decodeN i arg = .ok j) : encode j = commandWord op arg := by
  unfold decodeN at h
  split at h
  case isTrue h0 => cases h; rw [hi, h0]
  case isFalse => cases h

theorem append_low_of_high_zero (arg : Byte) (h : arg.extractLsb' 4 4 = 0) :
    (0 : BitVec 4) ++ arg.extractLsb' 0 4 = arg := by
  revert h; revert arg; decide

/-- Format I: the index is the low half of the operand, whose high half is zero. -/
theorem encode_of_decodeI {j : Instr} {arg : Byte} (h : decodeI .rdout arg = .ok j) :
    encode j = commandWord 0x30 arg := by
  unfold decodeI at h
  split at h
  case isTrue h0 => cases h; exact congrArg (commandWord 0x30) (append_low_of_high_zero arg h0)
  case isFalse => cases h

theorem encode_of_decodeFields {op arg : Byte} {i : Instr} (h : decodeFields op arg = .ok i) :
    encode i = commandWord op arg := by
  unfold decodeFields at h
  iterate 4 -- NOP, SRST, CLRK, CLRD
    obtain ⟨rfl, h⟩ | ⟨-, h⟩ := ite_eq_iff.1 h
    · exact encode_of_decodeN rfl h
  iterate 3 -- KPUSH, DPUSH, MPUSH
    obtain ⟨rfl, h⟩ | ⟨-, h⟩ := ite_eq_iff.1 h
    · cases h; rfl
  iterate 4 -- ENC, MINIT, MFINAL, MABORT
    obtain ⟨rfl, h⟩ | ⟨-, h⟩ := ite_eq_iff.1 h
    · exact encode_of_decodeN rfl h
  obtain ⟨rfl, h⟩ | ⟨-, h⟩ := ite_eq_iff.1 h
  · exact encode_of_decodeI h
  iterate 2 -- RDSTAT, RDERR
    obtain ⟨rfl, h⟩ | ⟨-, h⟩ := ite_eq_iff.1 h
    · exact encode_of_decodeN rfl h
  cases h

theorem commandWord_fields (w : CommandWord) : commandWord (opField w) (argField w) = w := by
  unfold commandWord opField argField
  rw [BitVec.extractLsb'_append_extractLsb'_eq_extractLsb' (by rfl)]
  exact BitVec.extractLsb'_eq_self

theorem encode_of_decode {w : CommandWord} {i : Instr} (h : decode w = .ok i) : encode i = w :=
  (encode_of_decodeFields h).trans (commandWord_fields w)

end Sys2Proof.Machine
end

section
/-!
PROOFS. What one command, one port cycle and one step can do, said once each.
-/

namespace Sys2Proof.Machine

theorem requireKey_short {body : State → Result} {s : State} (h : s.kcnt.val ≠ 16) :
    requireKey body s = .next (s.raise .invalidKeyLength) := if_neg h

/-! MPUSH's first part changes `X`, `IBUF` and `ICNT` only (rule R126). -/

@[simp] theorem Engine.absorbIfFull_key (e : Engine) : e.absorbIfFull.key = e.key := by
  unfold absorbIfFull; split <;> rfl

@[simp] theorem Engine.absorbIfFull_dout (e : Engine) : e.absorbIfFull.dout = e.dout := by
  unfold absorbIfFull; split <;> rfl

@[simp] theorem Engine.absorbIfFull_k1 (e : Engine) : e.absorbIfFull.k1 = e.k1 := by
  unfold absorbIfFull; split <;> rfl

@[simp] theorem Engine.absorbIfFull_k2 (e : Engine) : e.absorbIfFull.k2 = e.k2 := by
  unfold absorbIfFull; split <;> rfl

@[simp] theorem Engine.absorbIfFull_kcnt (e : Engine) : e.absorbIfFull.kcnt = e.kcnt := by
  unfold absorbIfFull; split <;> rfl

@[simp] theorem Engine.absorbIfFull_icnt (e : Engine) :
    e.absorbIfFull.icnt = if e.icnt.val = 16 then 0 else e.icnt := by
  unfold absorbIfFull; split <;> rfl

@[simp] theorem Engine.absorbIfFull_ovalid (e : Engine) : e.absorbIfFull.ovalid = e.ovalid := by
  unfold absorbIfFull; split <;> rfl

@[simp] theorem Engine.absorbIfFull_mact (e : Engine) : e.absorbIfFull.mact = e.mact := by
  unfold absorbIfFull; split <;> rfl

@[simp] theorem Engine.absorbIfFull_err (e : Engine) : e.absorbIfFull.err = e.err := by
  unfold absorbIfFull; split <;> rfl

/-- The engine after a command that completes: the effect column of rules R80 and R130. `exec_next` ties it
to `exec`. -/
def effectOf : Instr → Engine → Engine
  | .nop, e | .rdout _, e | .rdstat, e | .rderr, e => e
  | .srst, _ => Engine.reset
  | .clrk, e => e.clearKey
  | .clrd, e => e.clearInput
  | .kpush d, e => e.pushKey d
  | .dpush d, e => e.pushInput d
  | .mpush d, e => e.absorbIfFull.storeMessage d
  | .enc, e => e.encrypt
  | .minit, e => e.openMac
  | .mfinal, e => e.closeMac
  | .mabort, e => e.dropMac

/-- What the tests of rule R177 have established when a command completes with an effect. -/
def PassesTests : Instr → Engine → Prop
  | .nop, _ | .srst, _ | .rdout _, _ | .rdstat, _ | .rderr, _ | .mabort, _ => True
  | .clrk, e | .clrd, e | .kpush _, e | .dpush _, e => e.err = 0x00 ∧ e.mact = false
  | .mpush _, e => e.mact = true ∧ e.absorbIfFull.icnt.val < 16
  | .enc, e | .minit, e => e.mact = false ∧ e.kcnt.val = 16
  | .mfinal, e => e.mact = true

/-- The three ways a command that answers a next state can go (rules R70, R176, R178). -/
inductive Executes (i : Instr) (s t : State) : Prop where
  | ignored (hf : s.err ≠ 0x00) (ht : t = s.ignore)
  | raised {c : EngineError} (he : s.err = 0x00) (ht : t = s.raise c)
  | completed {rdata : Byte} (hp : PassesTests i s.toEngine)
    (ht : t = s.answer (effectOf i s.toEngine) rdata)

theorem exec_next {i : Instr} {s t : State} (h : exec i s = .next t) : Executes i s t := by
  cases i with
  | nop => exact .completed trivial (execNop_next h)
  | srst => exact .completed trivial (execSrst_next h)
  | rdstat => exact .completed trivial (execRdstat_next h)
  | rderr => exact .completed trivial (execRderr_next h)
  | clrk =>
    obtain ⟨hf, ht⟩ | ⟨he, hm, ht⟩ | ⟨he, -, ht⟩ := execClrk_next h
    exacts [.ignored hf ht, .completed ⟨he, hm⟩ ht, .raised he ht]
  | clrd =>
    obtain ⟨hf, ht⟩ | ⟨he, hm, ht⟩ | ⟨he, -, ht⟩ := execClrd_next h
    exacts [.ignored hf ht, .completed ⟨he, hm⟩ ht, .raised he ht]
  | kpush d =>
    obtain ⟨hf, ht⟩ | ⟨he, hm, ht⟩ | ⟨he, -, ht⟩ := execKpush_next h
    exacts [.ignored hf ht, .completed ⟨he, hm⟩ ht, .raised he ht]
  | dpush d =>
    obtain ⟨hf, ht⟩ | ⟨he, hm, ht⟩ | ⟨he, -, ht⟩ := execDpush_next h
    exacts [.ignored hf ht, .completed ⟨he, hm⟩ ht, .raised he ht]
  | mpush d =>
    obtain ⟨hf, ht⟩ | ⟨-, hm, hi, ht⟩ | ⟨he, -, ht⟩ := execMpush_next h
    exacts [.ignored hf ht, .completed ⟨hm, hi⟩ ht, .raised he ht]
  | enc =>
    obtain ⟨hf, ht⟩ | ⟨-, hm, hk, -, ht⟩ | ⟨he, -, ht⟩ | ⟨he, -, -, ht⟩ | ⟨he, -, -, -, ht⟩ :=
      execEnc_next h
    exacts [.ignored hf ht, .completed ⟨hm, hk⟩ ht, .raised he ht, .raised he ht, .raised he ht]
  | minit =>
    obtain ⟨hf, ht⟩ | ⟨-, hm, hk, ht⟩ | ⟨he, -, ht⟩ | ⟨he, -, -, ht⟩ := execMinit_next h
    exacts [.ignored hf ht, .completed ⟨hm, hk⟩ ht, .raised he ht, .raised he ht]
  | mfinal =>
    obtain ⟨hf, ht⟩ | ⟨-, hm, -, ht⟩ | ⟨he, -, ht⟩ := execMfinal_next h
    exacts [.ignored hf ht, .completed hm ht, .raised he ht]
  | mabort =>
    obtain ⟨hf, ht⟩ | ⟨-, ht⟩ := execMabort_next h
    exacts [.ignored hf ht, .completed trivial ht]
  | rdout idx =>
    obtain ⟨hf, ht⟩ | ⟨-, -, ht⟩ | ⟨he, -, ht⟩ := execRdout_next h
    exacts [.ignored hf ht, .completed trivial ht, .raised he ht]

theorem illegalWord_faulted {s : State} (h : s.err ≠ 0x00) : s.illegalWord = s.ignore :=
  if_pos ((Engine.faulted_iff _).2 h)

theorem illegalWord_unfaulted {s : State} (h : s.err = 0x00) :
    s.illegalWord = s.raise .illegalCommand := by
  simp [State.illegalWord, (Engine.not_faulted_iff _).2 h]

theorem command_decoded {w : CommandWord} {i : Instr} (h : decode w = .ok i) (s : State) :
    command w s = exec i s := by
  simp [command, h]

theorem command_illegal {w : CommandWord} {why : IllegalWord} (h : decode w = .error why) (s : State) :
    command w s = .next s.illegalWord := by
  simp [command, h]

theorem command_next {w : CommandWord} {s t : State} (h : command w s = .next t) :
    t = s.illegalWord ∨ ∃ i, decode w = .ok i ∧ Executes i s t := by
  cases hw : decode w with
  | error why =>
    rw [command_illegal hw] at h
    exact .inl (Host.Outcome.next.inj h).symm
  | ok i =>
    rw [command_decoded hw] at h
    exact .inr ⟨i, rfl, exec_next h⟩

theorem portCycle_reset {p : PortCycle} (h : p.rstN = false) (s : State) :
    portCycle p s = .next s.hardwareReset := if_pos h

theorem portCycle_issued {p : PortCycle} (hr : p.rstN = true) (hv : p.cmdValid = true) (s : State) :
    portCycle p s = command p.cmd s := by
  simp [portCycle, PortCycle.issues, PortCycle.cmdReady, hr, hv]

theorem portCycle_idle {p : PortCycle} (hr : p.rstN = true) (hv : p.cmdValid = false) (s : State) :
    portCycle p s = .next s := by
  simp [portCycle, PortCycle.issues, hr, hv]

theorem step_nil {s : State} (h : s.inputs = []) : step s = .next s := by
  simp [step, h]

theorem step_cons {s : State} {p : PortCycle} {rest : List PortCycle} (h : s.inputs = p :: rest) :
    step s = portCycle p { s with inputs := rest } := by
  simp [step, h]

/-- The four ways a step that answers a next state can go (rules R30, R183, R190). -/
inductive Steps (s : State) : State → Prop where
  | nothingToCome : Steps s s
  | reset {p : PortCycle} {rest : List PortCycle} (hin : s.inputs = p :: rest) (hr : p.rstN = false) :
    Steps s (State.hardwareReset { s with inputs := rest })
  | issued {p : PortCycle} {rest : List PortCycle} {t : State} (hin : s.inputs = p :: rest)
    (hv : p.cmdValid = true) (hc : command p.cmd { s with inputs := rest } = .next t) : Steps s t
  | idle (rest : List PortCycle) : Steps s { s with inputs := rest }

theorem step_next {s t : State} (h : step s = .next t) : Steps s t := by
  cases hin : s.inputs with
  | nil =>
    rw [step_nil hin] at h
    cases h; exact .nothingToCome
  | cons p rest =>
    rw [step_cons hin] at h
    cases hr : p.rstN with
    | false =>
      rw [portCycle_reset hr] at h
      cases h; exact .reset hin hr
    | true =>
      cases hv : p.cmdValid with
      | false =>
        rw [portCycle_idle hr hv] at h
        cases h; exact .idle rest
      | true =>
        rw [portCycle_issued hr hv] at h
        exact .issued hin hv h

/-- Settles O6: the offered word is issued, and an issued word that decodes is executed. -/
theorem stepRunsDecodedCommand : Obligations.StepRunsDecodedCommand := by
  intro s rest w i hin hw
  rw [step_cons hin, portCycle_issued rfl rfl, command_decoded hw]

/-- Settles O10: the key counter 0 of the reset state fails the first length test of ENC and MINIT. -/
theorem resetValues : Obligations.ResetValues := by
  refine ⟨rfl, fun i => blockZero_getElem i.isLt, rfl, fun s => ⟨s.softReset, rfl, rfl⟩, fun s hs => ?_⟩
  have he : s.err = 0x00 := by rw [hs]; rfl
  have hk : s.kcnt.val ≠ 16 := by rw [hs]; decide
  have hm : ModeRule.idleOnly.allows s.mact = true := by rw [hs]; rfl
  exact ⟨(inModes_allowed he hm).trans (requireKey_short hk),
    (inModes_allowed he hm).trans (requireKey_short hk)⟩

end Sys2Proof.Machine
end

section
/-!
PROOFS. The invariants of 10_state.md rule R24: each effect keeps them, so every command and every step does.
-/

namespace Sys2Proof.Machine

/-- Items 3 and 4 of rule R24: the bytes of a register from its counter on are zero. -/
def ZeroFrom (reg : Block) (count : Fin 18) : Prop :=
  ∀ i : Fin 16, min count.val 16 ≤ i.val → reg[i] = 0x00

theorem zeroFrom_zero (count : Fin 18) : ZeroFrom Block.zero count :=
  fun i _ => blockZero_getElem i.isLt

theorem putByte_zeroFrom {reg : Block} {count : Fin 18} (d : Byte) (hc : count.val < 16)
    (h : ZeroFrom reg count) : ZeroFrom (putByte reg count.val d) (countUp count) := by
  intro i hi
  rw [countUp_val hc] at hi
  have hne : count.val ≠ i.val := by omega
  calc (putByte reg count.val d)[i.val]
      = if count.val = i.val then d else reg[i.val] := putByte_getElem i.isLt
    _ = reg[i.val] := if_neg hne
    _ = 0x00 := h i (by omega)

theorem pushByte_zeroFrom {reg : Block} {count : Fin 18} (d : Byte) (h : ZeroFrom reg count) :
    ZeroFrom (pushByte reg count d).1 (pushByte reg count d).2 := by
  obtain hc | hc := Nat.lt_or_ge count.val 16
  · rw [pushByte_below hc]; exact putByte_zeroFrom d hc h
  · rw [pushByte_above hc]
    intro i (hi : min 17 16 ≤ i.val)
    omega

theorem EngineError.code_range (c : EngineError) : 1 ≤ c.code.toNat ∧ c.code.toNat ≤ 5 := by
  cases c <;> decide

/-- An engine with every register at its reset value and an error code, or none, meets rule R24: the reset
engine and the engine after fault entry. -/
theorem Engine.reset_withErr_inv {c : Byte} (hc : c.toNat ≤ 5) : { Engine.reset with err := c }.Inv where
  faultedZero _ := ⟨rfl, rfl, rfl, rfl, rfl, rfl, rfl, rfl, rfl, rfl⟩
  idleZero _ := ⟨rfl, rfl, rfl⟩
  keyTail := zeroFrom_zero _
  ibufTail := zeroFrom_zero _
  noResultZero _ := rfl
  macOpen hm := nomatch hm
  errRange := hc

theorem Engine.reset_inv : Engine.reset.Inv := Engine.reset_withErr_inv (c := 0x00) (by decide)

theorem Engine.faultEntry_inv (e : Engine) (c : EngineError) : (e.faultEntry c).Inv :=
  Engine.reset_withErr_inv c.code_range.2

namespace Engine.Inv

variable {e : Engine}

theorem err_eq_zero_of_mact (h : e.Inv) (hm : e.mact = true) : e.err = 0x00 := by
  by_contra hf
  obtain ⟨-, -, -, -, -, -, -, -, -, hm'⟩ := h.faultedZero hf
  simp [hm'] at hm

theorem err_eq_zero_of_key (h : e.Inv) (hk : e.kcnt.val = 16) : e.err = 0x00 := by
  by_contra hf
  obtain ⟨-, -, -, -, -, -, hk', -⟩ := h.faultedZero hf
  omega

theorem clearKey (h : e.Inv) (he : e.err = 0x00) (hm : e.mact = false) : e.clearKey.Inv where
  faultedZero hf := absurd he hf
  idleZero := h.idleZero
  keyTail := zeroFrom_zero _
  ibufTail := h.ibufTail
  noResultZero := h.noResultZero
  macOpen hm' := absurd hm' (by simp [hm])
  errRange := h.errRange

theorem clearInput (h : e.Inv) (he : e.err = 0x00) (hm : e.mact = false) : e.clearInput.Inv where
  faultedZero hf := absurd he hf
  idleZero := h.idleZero
  keyTail := h.keyTail
  ibufTail := zeroFrom_zero _
  noResultZero := h.noResultZero
  macOpen hm' := absurd hm' (by simp [hm])
  errRange := h.errRange

theorem pushKey (h : e.Inv) (he : e.err = 0x00) (hm : e.mact = false) (d : Byte) :
    (e.pushKey d).Inv where
  faultedZero hf := absurd he hf
  idleZero := h.idleZero
  keyTail := pushByte_zeroFrom d h.keyTail
  ibufTail := h.ibufTail
  noResultZero := h.noResultZero
  macOpen hm' := absurd hm' (by simp [hm])
  errRange := h.errRange

theorem pushInput (h : e.Inv) (he : e.err = 0x00) (hm : e.mact = false) (d : Byte) :
    (e.pushInput d).Inv where
  faultedZero hf := absurd he hf
  idleZero := h.idleZero
  keyTail := h.keyTail
  ibufTail := pushByte_zeroFrom d h.ibufTail
  noResultZero := h.noResultZero
  macOpen hm' := absurd hm' (by simp [hm])
  errRange := h.errRange

theorem absorb (h : e.Inv) (hm : e.mact = true) : e.absorb.Inv where
  faultedZero hf := absurd (h.err_eq_zero_of_mact hm) hf
  idleZero hm' := absurd hm (by simpa using hm')
  keyTail := h.keyTail
  ibufTail := zeroFrom_zero _
  noResultZero := h.noResultZero
  macOpen _ :=
    have ⟨hk, ho, _, h1, h2⟩ := h.macOpen hm
    ⟨hk, ho, Nat.zero_le 16, h1, h2⟩
  errRange := h.errRange

theorem absorbIfFull (h : e.Inv) (hm : e.mact = true) : e.absorbIfFull.Inv := by
  unfold Engine.absorbIfFull
  split
  · exact h.absorb hm
  · exact h

theorem storeMessage (h : e.Inv) (hm : e.mact = true) (hi : e.icnt.val < 16) (d : Byte) :
    (e.storeMessage d).Inv where
  faultedZero hf := absurd (h.err_eq_zero_of_mact hm) hf
  idleZero hm' := absurd hm (by simpa using hm')
  keyTail := h.keyTail
  ibufTail := putByte_zeroFrom d hi h.ibufTail
  noResultZero := h.noResultZero
  macOpen _ :=
    have ⟨hk, ho, _, h1, h2⟩ := h.macOpen hm
    ⟨hk, ho, (countUp_val hi).trans_le hi, h1, h2⟩
  errRange := h.errRange

theorem encrypt (h : e.Inv) (hm : e.mact = false) (hk : e.kcnt.val = 16) : e.encrypt.Inv where
  faultedZero hf := absurd (h.err_eq_zero_of_key hk) hf
  idleZero := h.idleZero
  keyTail := h.keyTail
  ibufTail := zeroFrom_zero _
  noResultZero ho := nomatch ho
  macOpen hm' := absurd hm' (by simp [hm])
  errRange := h.errRange

theorem openMac (h : e.Inv) (hk : e.kcnt.val = 16) : e.openMac.Inv where
  faultedZero hf := absurd (h.err_eq_zero_of_key hk) hf
  idleZero hm := nomatch hm
  keyTail := h.keyTail
  ibufTail := zeroFrom_zero _
  noResultZero _ := rfl
  macOpen _ := ⟨hk, rfl, Nat.zero_le 16, rfl, rfl⟩
  errRange := h.errRange

theorem dropMac (h : e.Inv) : e.dropMac.Inv where
  faultedZero hf :=
    have ⟨hkey, _, hdout, _, _, _, hk, _, ho, _⟩ := h.faultedZero hf
    ⟨hkey, rfl, hdout, rfl, rfl, rfl, hk, rfl, ho, rfl⟩
  idleZero _ := ⟨rfl, rfl, rfl⟩
  keyTail := h.keyTail
  ibufTail := zeroFrom_zero _
  noResultZero := h.noResultZero
  macOpen hm := nomatch hm
  errRange := h.errRange

theorem closeMac (h : e.Inv) (hm : e.mact = true) : e.closeMac.Inv where
  faultedZero hf := absurd (h.err_eq_zero_of_mact hm) hf
  idleZero _ := ⟨rfl, rfl, rfl⟩
  keyTail := h.keyTail
  ibufTail := zeroFrom_zero _
  noResultZero ho := nomatch ho
  macOpen hm := nomatch hm
  errRange := h.errRange

end Engine.Inv

theorem effectOf_inv {i : Instr} {e : Engine} (h : e.Inv) (hp : PassesTests i e) :
    (effectOf i e).Inv := by
  cases i with
  | nop | rdout _ | rdstat | rderr => exact h
  | srst => exact Engine.reset_inv
  | clrk => obtain ⟨he, hm⟩ := hp; exact h.clearKey he hm
  | clrd => obtain ⟨he, hm⟩ := hp; exact h.clearInput he hm
  | kpush d => obtain ⟨he, hm⟩ := hp; exact h.pushKey he hm d
  | dpush d => obtain ⟨he, hm⟩ := hp; exact h.pushInput he hm d
  | mpush d =>
    obtain ⟨hm, hi⟩ := hp
    exact (h.absorbIfFull hm).storeMessage (e.absorbIfFull_mact.trans hm) hi d
  | enc => obtain ⟨hm, hk⟩ := hp; exact h.encrypt hm hk
  | minit => obtain ⟨-, hk⟩ := hp; exact h.openMac hk
  | mfinal => exact h.closeMac hp
  | mabort => exact h.dropMac

theorem executes_inv {i : Instr} {s t : State} (h : Executes i s t) (hs : s.toEngine.Inv) :
    t.toEngine.Inv := by
  obtain ⟨-, rfl⟩ | ⟨-, rfl⟩ | ⟨hp, rfl⟩ := h
  · exact hs
  · exact s.toEngine.faultEntry_inv _
  · exact effectOf_inv hs hp

theorem illegalWord_inv {s : State} (hs : s.toEngine.Inv) : s.illegalWord.toEngine.Inv := by
  by_cases he : s.err = 0x00
  · rw [illegalWord_unfaulted he]; exact s.toEngine.faultEntry_inv _
  · rw [illegalWord_faulted he]; exact hs

theorem command_inv {w : CommandWord} {s t : State} (h : command w s = .next t)
    (hs : s.toEngine.Inv) : t.toEngine.Inv := by
  obtain rfl | ⟨i, -, hi⟩ := command_next h
  · exact illegalWord_inv hs
  · exact executes_inv hi hs

/-- Settles O12. -/
theorem resetMeetsInvariant : Obligations.ResetMeetsInvariant := Engine.reset_inv

/-- Settles O13: an idle port leaves the engine, reset gives the reset engine, and every command either
leaves it, enters the fault state or has one of the effects above. -/
theorem stepKeepsInvariant : Obligations.StepKeepsInvariant := by
  intro s t hs h
  cases step_next h with
  | nothingToCome => exact hs
  | reset => exact Engine.reset_inv
  | issued _ _ hc => exact command_inv hc hs
  | idle => exact hs

end Sys2Proof.Machine
end

section
/-!
PROOFS. What a command leaves unchanged: `ERR` (10_state.md rule R20) and the registers it does not write
(rules R10, R80, R130).
-/

namespace Sys2Proof.Machine

theorem effectOf_err {i : Instr} (h : i ≠ .srst) (e : Engine) : (effectOf i e).err = e.err := by
  cases i with
  | srst => exact absurd rfl h
  | mpush d => exact e.absorbIfFull_err
  | _ => rfl

theorem effectOf_key {i : Instr} (h : writesKey i = false) (e : Engine) :
    (effectOf i e).key = e.key ∧ (effectOf i e).kcnt = e.kcnt := by
  cases i with
  | kpush _ | clrk | srst => cases h
  | mpush d => exact ⟨e.absorbIfFull_key, e.absorbIfFull_kcnt⟩
  | _ => exact ⟨rfl, rfl⟩

theorem effectOf_input {i : Instr} (h : writesInput i = false) (e : Engine) :
    (effectOf i e).ibuf = e.ibuf ∧ (effectOf i e).icnt = e.icnt := by
  cases i with
  | nop | clrk | kpush _ | rdout _ | rdstat | rderr => exact ⟨rfl, rfl⟩
  | _ => cases h

theorem effectOf_output {i : Instr} (h : writesOutput i = false) (e : Engine) :
    (effectOf i e).dout = e.dout ∧ (effectOf i e).ovalid = e.ovalid := by
  cases i with
  | enc | minit | mfinal | srst => cases h
  | mpush d => exact ⟨e.absorbIfFull_dout, e.absorbIfFull_ovalid⟩
  | _ => exact ⟨rfl, rfl⟩

theorem effectOf_chain {i : Instr} (h : writesChain i = false) (e : Engine) :
    (effectOf i e).x = e.x := by
  cases i with
  | minit | mpush _ | mfinal | mabort | srst => cases h
  | _ => rfl

theorem effectOf_subkeys {i : Instr} (h : writesSubkeys i = false) (e : Engine) :
    (effectOf i e).k1 = e.k1 ∧ (effectOf i e).k2 = e.k2 ∧ (effectOf i e).mact = e.mact := by
  cases i with
  | minit | mfinal | mabort | srst => cases h
  | mpush d => exact ⟨e.absorbIfFull_k1, e.absorbIfFull_k2, e.absorbIfFull_mact⟩
  | _ => exact ⟨rfl, rfl, rfl⟩

/-- Settles O37: with no error before or after, the command completed, and its effect has the frame of
its row. -/
theorem registersHaveNamedWriters : Obligations.RegistersHaveNamedWriters := by
  intro s t i h hs ht
  obtain ⟨hf, -⟩ | @⟨c, -, rfl⟩ | ⟨-, rfl⟩ := exec_next h
  · exact absurd hs hf
  · exact absurd ht c.code_ne_zero
  · exact ⟨fun hw => effectOf_key hw _, fun hw => effectOf_input hw _, fun hw => effectOf_output hw _,
      fun hw => effectOf_chain hw _, fun hw => effectOf_subkeys hw _, rfl, _, rfl⟩

/-- Where a command changes `ERR`, it raises an error or is SRST (rule R20). -/
theorem executes_err {i : Instr} {s t : State} (h : Executes i s t) (hne : t.err ≠ s.err) :
    (s.err = 0x00 ∧ ∃ c : EngineError, t.err = c.code) ∨ (t.err = 0x00 ∧ i = .srst) := by
  obtain ⟨-, rfl⟩ | @⟨c, he, rfl⟩ | ⟨-, rfl⟩ := h
  · exact absurd rfl hne
  · exact .inl ⟨he, c, rfl⟩
  · by_cases hi : i = .srst
    · subst hi; exact .inr ⟨rfl, rfl⟩
    · exact absurd (effectOf_err hi _) hne

theorem illegalWord_err {s : State} (hne : s.illegalWord.err ≠ s.err) :
    s.err = 0x00 ∧ ∃ c : EngineError, s.illegalWord.err = c.code := by
  by_cases he : s.err = 0x00
  · rw [illegalWord_unfaulted he]; exact ⟨he, .illegalCommand, rfl⟩
  · rw [illegalWord_faulted he] at hne; exact absurd rfl hne

theorem command_err {w : CommandWord} {s t : State} (h : command w s = .next t)
    (hne : t.err ≠ s.err) :
    (s.err = 0x00 ∧ ∃ c : EngineError, t.err = c.code) ∨ (t.err = 0x00 ∧ w = 0x0100) := by
  obtain rfl | ⟨i, hw, hi⟩ := command_next h
  · exact .inl (illegalWord_err hne)
  · obtain hc | ⟨ht, rfl⟩ := executes_err hi hne
    · exact .inl hc
    · exact .inr ⟨ht, (encode_of_decode hw).symm⟩

/-- Settles O34: fault entry writes a code 1..5, and only the word of SRST or asserted reset clears it. -/
theorem errKeepsFirstCode : Obligations.ErrKeepsFirstCode := by
  intro s t h hne
  cases step_next h with
  | nothingToCome | idle => exact absurd rfl hne
  | reset hin hr => exact .inr ⟨rfl, _, _, hin, .inl hr⟩
  | issued hin hv hc =>
    obtain ⟨hs, c, hct⟩ | ⟨ht, hw⟩ := command_err hc hne
    · exact .inl ⟨hs, hct ▸ c.code_range⟩
    · exact .inr ⟨ht, _, _, hin, .inr ⟨hv, hw⟩⟩

end Sys2Proof.Machine
end

section
/-!
PROOFS. No command reads `KEY`, `IBUF`, `X`, `K1` or `K2` back (10_state.md rules R11, R25; 60_exceptions.md
rule R182): from two states alike to the host, each test goes the same way and each answer is the same.
-/

namespace Sys2Proof.Machine

/-- Two states the host cannot tell apart: the readable registers and the responses so far agree. -/
def State.SameToHost (a b : State) : Prop :=
  a.toEngine.SameReadable b.toEngine ∧ a.responses = b.responses

/-- Alike after one command: as `SameReadable`, with `DOUT` only under the condition `keeps`. -/
def Engine.AlikeAfter (keeps : Prop) (e f : Engine) : Prop :=
  Engine.SameReadable { e with dout := Block.zero } { f with dout := Block.zero } ∧
    (keeps → e.dout = f.dout)

/-- If the first run answers a next state, the second answers one with the same responses, alike. -/
def AnswersAlike (keeps : Prop) (ra rb : Result) : Prop :=
  ∀ ta, ra = .next ta → ∃ tb, rb = .next tb ∧ ta.responses = tb.responses ∧
    ta.toEngine.AlikeAfter keeps tb.toEngine

theorem fault_answersAlike (keeps : Prop) (r : Fault) (rb : Result) :
    AnswersAlike keeps (.fault r) rb := nofun

/-- The counter after a push does not depend on the register's bytes. -/
theorem pushByte_count {p q : Block} {c c' : Fin 18} {d : Byte} (h : c = c') :
    (pushByte p c d).2 = (pushByte q c' d).2 := by
  subst h
  unfold pushByte
  split <;> rfl

namespace Engine.SameReadable

variable {e f : Engine}

theorem alikeAfter (h : e.SameReadable f) (keeps : Prop) : e.AlikeAfter keeps f :=
  have ⟨hd, hk, hi, ho, hm, he⟩ := h
  ⟨⟨rfl, hk, hi, ho, hm, he⟩, fun _ => hd⟩

theorem status (h : e.SameReadable f) : e.status = f.status := by
  obtain ⟨-, hk, hi, ho, hm, he⟩ := h
  simp only [Engine.status, Engine.faulted, hk, hi, ho, hm, he]

theorem resultByte (h : e.SameReadable f) (idx : BitVec 4) : e.resultByte idx = f.resultByte idx := by
  obtain ⟨hd, -⟩ := h
  simp only [Engine.resultByte, hd]

theorem absorbIfFull (h : e.SameReadable f) : e.absorbIfFull.SameReadable f.absorbIfFull := by
  obtain ⟨hd, hk, hi, ho, hm, he⟩ := h
  simp [Engine.SameReadable, hd, hk, hi, ho, hm, he]

/-- What an effect leaves in the readable registers depends on these registers alone, but for the `DOUT` of
ENC and MFINAL. -/
theorem effectOf_alike (h : e.SameReadable f) (i : Instr) :
    (effectOf i e).AlikeAfter (i ≠ .enc ∧ i ≠ .mfinal) (effectOf i f) := by
  have ⟨hd, hk, hi, ho, hm, he⟩ := h
  cases i with
  | nop | rdout _ | rdstat | rderr => exact h.alikeAfter _
  | srst => exact ⟨⟨rfl, rfl, rfl, rfl, rfl, rfl⟩, fun _ => rfl⟩
  | clrk => exact ⟨⟨rfl, rfl, hi, ho, hm, he⟩, fun _ => hd⟩
  | clrd => exact ⟨⟨rfl, hk, rfl, ho, hm, he⟩, fun _ => hd⟩
  | kpush d => exact ⟨⟨rfl, pushByte_count hk, hi, ho, hm, he⟩, fun _ => hd⟩
  | dpush d => exact ⟨⟨rfl, hk, pushByte_count hi, ho, hm, he⟩, fun _ => hd⟩
  | mpush d =>
    have ⟨hd, hk, hi, ho, hm, he⟩ := h.absorbIfFull
    exact ⟨⟨rfl, hk, congrArg countUp hi, ho, hm, he⟩, fun _ => hd⟩
  | enc => exact ⟨⟨rfl, hk, rfl, rfl, hm, he⟩, fun hn => absurd rfl hn.1⟩
  | minit => exact ⟨⟨rfl, hk, rfl, rfl, rfl, he⟩, fun _ => rfl⟩
  | mfinal => exact ⟨⟨rfl, hk, rfl, rfl, rfl, he⟩, fun hn => absurd rfl hn.2⟩
  | mabort => exact ⟨⟨rfl, hk, rfl, ho, rfl, he⟩, fun _ => hd⟩

end Engine.SameReadable

namespace State.SameToHost

variable {a b : State} {keeps : Prop}

theorem answer (h : a.SameToHost b) {e f : Engine} {r q : Byte} (hef : e.AlikeAfter keeps f)
    (hrq : r = q) : AnswersAlike keeps (.next (a.answer e r)) (.next (b.answer f q)) := by
  rintro ta ⟨⟩
  obtain ⟨-, -, -, -, -, he : e.err = f.err⟩ := hef.1
  refine ⟨_, rfl, ?_, hef⟩
  simp only [State.answer_responses, Engine.faulted, h.2, he, hrq]

theorem ignore (h : a.SameToHost b) : AnswersAlike keeps (.next a.ignore) (.next b.ignore) :=
  h.answer (h.1.alikeAfter keeps) rfl

theorem raise (h : a.SameToHost b) (c : EngineError) :
    AnswersAlike keeps (.next (a.raise c)) (.next (b.raise c)) :=
  h.answer ⟨⟨rfl, rfl, rfl, rfl, rfl, rfl⟩, fun _ => rfl⟩ rfl

theorem illegalWord (h : a.SameToHost b) :
    AnswersAlike keeps (.next a.illegalWord) (.next b.illegalWord) := by
  obtain ⟨-, -, -, -, -, he⟩ := h.1
  by_cases hb : b.err = 0x00
  · rw [illegalWord_unfaulted hb, illegalWord_unfaulted (he.trans hb)]
    exact h.raise _
  · rw [illegalWord_faulted hb, illegalWord_faulted (he.trans_ne hb)]
    exact h.ignore

variable {body : State → Result}

theorem inModes (h : a.SameToHost b) {rule : ModeRule} (hb : AnswersAlike keeps (body a) (body b)) :
    AnswersAlike keeps (inModes rule body a) (inModes rule body b) := by
  obtain ⟨-, -, -, -, hm, he⟩ := h.1
  by_cases hf : b.err = 0x00
  · cases ha : rule.allows b.mact with
    | true => rwa [inModes_allowed hf ha, inModes_allowed (he.trans hf) (hm ▸ ha)]
    | false =>
      rw [inModes_forbidden hf ha, inModes_forbidden (he.trans hf) (hm ▸ ha)]
      exact h.raise _
  · rw [inModes_faulted hf, inModes_faulted (he.trans_ne hf)]
    exact h.ignore

theorem requireKey (h : a.SameToHost b) (hb : AnswersAlike keeps (body a) (body b)) :
    AnswersAlike keeps (requireKey body a) (requireKey body b) := by
  obtain ⟨-, hk, -⟩ := h.1
  simp only [Machine.requireKey, hk]
  split
  · exact hb
  · exact h.raise _

theorem requireBlock (h : a.SameToHost b) (hb : AnswersAlike keeps (body a) (body b)) :
    AnswersAlike keeps (requireBlock body a) (requireBlock body b) := by
  obtain ⟨-, -, hi, -⟩ := h.1
  simp only [Machine.requireBlock, hi]
  split
  · exact hb
  · exact h.raise _

theorem requireOutput (h : a.SameToHost b) (hb : AnswersAlike keeps (body a) (body b)) :
    AnswersAlike keeps (requireOutput body a) (requireOutput body b) := by
  obtain ⟨-, -, -, ho, -⟩ := h.1
  simp only [Machine.requireOutput, ho]
  split
  · exact hb
  · exact h.raise _

/-- MPUSH stores the byte, or stops, by `ICNT` alone. -/
theorem appendMessage (h : a.SameToHost b) (d : Byte)
    (hef : (effectOf (.mpush d) a.toEngine).AlikeAfter keeps (effectOf (.mpush d) b.toEngine)) :
    AnswersAlike keeps (appendMessage d a a.toEngine.absorbIfFull)
      (appendMessage d b b.toEngine.absorbIfFull) := by
  obtain ⟨-, -, hi, -⟩ := h.1.absorbIfFull
  simp only [Machine.appendMessage, hi]
  split
  · exact h.answer hef rfl
  · exact fault_answersAlike _ _ _

/-- A command whose effect leaves the two engines alike answers alike: its tests read `ERR`, `MACT`, `KCNT`,
`ICNT` and `OVALID` only, and its read byte is of `DOUT`, `STATUS` or `ERR`. -/
theorem exec (h : a.SameToHost b) (i : Instr)
    (hef : (effectOf i a.toEngine).AlikeAfter keeps (effectOf i b.toEngine)) :
    AnswersAlike keeps (exec i a) (exec i b) := by
  obtain ⟨-, -, hi, -, -, he⟩ := h.1
  cases i <;> simp only [Machine.exec, execNop, execSrst, execClrk, execClrd, execKpush, execDpush,
    execMpush, execEnc, execMinit, execMfinal, execMabort, execRdout, execRdstat, execRderr]
  case srst => exact h.answer hef rfl
  case rdstat => exact h.answer hef h.1.status
  case rderr => exact h.answer hef he
  case rdout idx => exact h.inModes (h.requireOutput (h.answer hef (h.1.resultByte idx)))
  case enc => exact h.inModes (h.requireKey (h.requireBlock (h.answer hef rfl)))
  case minit => exact h.inModes (h.requireKey (h.answer hef rfl))
  case mpush d => exact h.inModes (h.appendMessage d hef)
  case mfinal =>
    refine h.inModes ?_
    simp only [hi]
    split
    · exact h.answer hef rfl
    · exact fault_answersAlike _ _ _
  all_goals exact h.inModes (h.answer hef rfl)

/-- One issued word: only the words of ENC and MFINAL may leave different `DOUT`. -/
theorem command (h : a.SameToHost b) (w : CommandWord) :
    AnswersAlike (w ≠ 0x2000 ∧ w ≠ 0x2200) (command w a) (command w b) := by
  cases hw : decode w with
  | error why => rw [command_illegal hw, command_illegal hw]; exact h.illegalWord
  | ok i =>
    rw [command_decoded hw, command_decoded hw]
    intro ta hta
    obtain ⟨tb, htb, hr, hs, hd⟩ := h.exec i (h.1.effectOf_alike i) ta hta
    refine ⟨tb, htb, hr, hs, fun ⟨henc, hfinal⟩ => hd ⟨?_, ?_⟩⟩
    · rintro rfl; exact henc (encode_of_decode hw).symm
    · rintro rfl; exact hfinal (encode_of_decode hw).symm

end State.SameToHost

/-- Settles O38: the two runs of the word are alike, whatever the two hold in the write-only registers. -/
theorem secretsHaveNoReadPath : Obligations.SecretsHaveNoReadPath := by
  intro a b ta w hs hr hta
  obtain ⟨tb, htb, hresp, hread, hd⟩ := State.SameToHost.command ⟨hs, hr⟩ w ta hta
  exact ⟨tb, htb, hresp, hread, fun henc hfinal => hd ⟨henc, hfinal⟩⟩

end Sys2Proof.Machine
end

section
/-!
PROOFS. The decoder against the encoder and against the table of 30_encoding.md rule R52: decoding undoes
encoding, each row's words decode to its command, and the legal words are counted as the words of the
commands (rules R51, R52, R54).
-/

namespace Sys2Proof.Machine

/-- Settles O1. -/
theorem sampleWordsDecode : Obligations.SampleWordsDecode := by
  unfold Obligations.SampleWordsDecode; decide

/-! ## Decoding and encoding -/

@[simp] theorem opField_commandWord (op arg : Byte) : opField (commandWord op arg) = op :=
  BitVec.extractLsb'_append_eq_left

@[simp] theorem argField_commandWord (op arg : Byte) : argField (commandWord op arg) = arg :=
  BitVec.extractLsb'_append_eq_right

theorem decode_commandWord (op arg : Byte) : decode (commandWord op arg) = decodeFields op arg := by
  simp [decode]

/-- Format I: an index below four zero bits is read back. -/
theorem decodeI_index (f : BitVec 4 → Instr) (idx : BitVec 4) : decodeI f (0#4 ++ idx) = .ok (f idx) := by
  have hhigh : (0#4 ++ idx).extractLsb' 4 4 = 0 := by revert idx; decide
  have hlow : (0#4 ++ idx).extractLsb' 0 4 = idx := by revert idx; decide
  simp only [decodeI, hhigh, hlow, if_true]

theorem decode_encode (i : Instr) : decode (encode i) = .ok i := by
  cases i with
  | rdout idx => exact (decode_commandWord _ _).trans (decodeI_index .rdout idx)
  | _ => exact decode_commandWord _ _

/-- Settles O2: every operand type holds only well-formed operands, so the hypothesis is not needed. -/
theorem encodedCommandsDecodeBack : Obligations.EncodedCommandsDecodeBack :=
  fun i _ => decode_encode i

/-- Settles O3. -/
theorem decodedWordsEncodeBack : Obligations.DecodedWordsEncodeBack :=
  fun _ _ => encode_of_decode

theorem encode_injective : Function.Injective encode := fun i j h =>
  Except.ok.inj (by rw [← decode_encode i, h, decode_encode j])

/-! ## The decoder, row by row of the table -/

/-- Why a format refuses an operand byte, if it does (rules R51, R54). `decodeFields_row` ties it to the
decoder. -/
def refusalOf : Format → Byte → Option IllegalWord
  | .n, arg => if arg = 0x00 then none else some .operandNotZero
  | .b, _ => none
  | .i, arg => if arg.extractLsb' 4 4 = 0 then none else some .indexBitsNotZero

theorem refusalOf_ne_unknownOpcode (f : Format) (arg : Byte) :
    refusalOf f arg ≠ some .unknownOpcode := by
  cases f <;> simp [refusalOf]

theorem refusalOf_operandNotZero_iff {f : Format} {arg : Byte} :
    refusalOf f arg = some .operandNotZero ↔ f = .n ∧ arg ≠ 0x00 := by
  cases f <;> simp [refusalOf]

theorem refusalOf_indexBitsNotZero_iff {f : Format} {arg : Byte} :
    refusalOf f arg = some .indexBitsNotZero ↔ f = .i ∧ arg.extractLsb' 4 4 ≠ 0 := by
  cases f <;> simp [refusalOf]

theorem decodeN_eq_refusalOf (i : Instr) (arg : Byte) :
    decodeN i arg = (refusalOf .n arg).elim (.ok i) .error := by
  simp only [decodeN, refusalOf]; split <;> rfl

theorem decodeI_eq_refusalOf (f : BitVec 4 → Instr) (arg : Byte) :
    decodeI f arg = (refusalOf .i arg).elim (.ok (f (arg.extractLsb' 0 4))) .error := by
  simp only [decodeI, refusalOf]; split <;> rfl

/-- A row's opcode decodes to the row's command, unless the row's format refuses the operand. -/
theorem decodeFields_row {row : OpcodeRow} (h : row ∈ opcodeTable) (arg : Byte) :
    ∃ i : Instr, i.mnemonic = row.mnemonic ∧
      decodeFields row.op arg = (refusalOf row.format arg).elim (.ok i) .error := by
  simp only [opcodeTable, List.mem_cons, List.not_mem_nil, or_false] at h
  obtain rfl | rfl | rfl | rfl | rfl | rfl | rfl | rfl | rfl | rfl | rfl | rfl | rfl | rfl := h
  · exact ⟨.nop, rfl, decodeN_eq_refusalOf _ _⟩
  · exact ⟨.srst, rfl, decodeN_eq_refusalOf _ _⟩
  · exact ⟨.clrk, rfl, decodeN_eq_refusalOf _ _⟩
  · exact ⟨.clrd, rfl, decodeN_eq_refusalOf _ _⟩
  · exact ⟨.kpush arg, rfl, rfl⟩
  · exact ⟨.dpush arg, rfl, rfl⟩
  · exact ⟨.mpush arg, rfl, rfl⟩
  · exact ⟨.enc, rfl, decodeN_eq_refusalOf _ _⟩
  · exact ⟨.minit, rfl, decodeN_eq_refusalOf _ _⟩
  · exact ⟨.mfinal, rfl, decodeN_eq_refusalOf _ _⟩
  · exact ⟨.mabort, rfl, decodeN_eq_refusalOf _ _⟩
  · exact ⟨.rdout (arg.extractLsb' 0 4), rfl, decodeI_eq_refusalOf _ _⟩
  · exact ⟨.rdstat, rfl, decodeN_eq_refusalOf _ _⟩
  · exact ⟨.rderr, rfl, decodeN_eq_refusalOf _ _⟩

theorem decodeFields_unknown {op : Byte} (h : ∀ row ∈ opcodeTable, op ≠ row.op) (arg : Byte) :
    decodeFields op arg = .error .unknownOpcode := by
  simp only [opcodeTable, List.forall_mem_cons] at h
  simp only [decodeFields, h, if_false]

/-- The clauses of rule R54 in one: no row has the opcode, or the row that has it refuses the operand. -/
theorem decode_error_iff {w : CommandWord} {why : IllegalWord} :
    decode w = .error why ↔
      (why = .unknownOpcode ∧ ∀ row ∈ opcodeTable, opField w ≠ row.op) ∨
      ∃ row ∈ opcodeTable, opField w = row.op ∧ refusalOf row.format (argField w) = some why := by
  unfold decode
  constructor
  · intro h
    by_cases hop : ∀ row ∈ opcodeTable, opField w ≠ row.op
    · rw [decodeFields_unknown hop] at h
      cases h; exact .inl ⟨rfl, hop⟩
    · push Not at hop
      obtain ⟨row, hrow, hop⟩ := hop
      obtain ⟨i, -, hi⟩ := decodeFields_row hrow (argField w)
      rw [hop, hi] at h
      cases hr : refusalOf row.format (argField w) with
      | none => rw [hr] at h; cases h
      | some _ => rw [hr] at h; cases h; exact .inr ⟨row, hrow, hop, hr⟩
  · rintro (⟨rfl, hop⟩ | ⟨row, hrow, hop, hr⟩)
    · exact decodeFields_unknown hop _
    · obtain ⟨i, -, hi⟩ := decodeFields_row hrow (argField w)
      rw [hop, hi, hr]; rfl

/-- Settles O5: each clause is one way `decode_error_iff` allows, as a format gives one reason only. -/
theorem illegalWordsByClause : Obligations.IllegalWordsByClause := by
  intro w
  refine ⟨?_, ?_, ?_⟩
  · simp [decode_error_iff, refusalOf_ne_unknownOpcode]
  · simp only [decode_error_iff, refusalOf_operandNotZero_iff]
    constructor
    · rintro (⟨⟨⟩, -⟩ | ⟨row, hrow, hop, hn, harg⟩)
      exact ⟨⟨row, hrow, hn, hop⟩, harg⟩
    · rintro ⟨⟨row, hrow, hn, hop⟩, harg⟩
      exact .inr ⟨row, hrow, hop, hn, harg⟩
  · have hformat : ∀ row ∈ opcodeTable, row.format = .i → row.op = 0x30 := by decide
    simp only [decode_error_iff, refusalOf_indexBitsNotZero_iff]
    constructor
    · rintro (⟨⟨⟩, -⟩ | ⟨row, hrow, hop, hi, harg⟩)
      exact ⟨hop.trans (hformat row hrow hi), harg⟩
    · rintro ⟨hop, harg⟩
      exact .inr ⟨⟨"RDOUT", 0x30, .i, 0x3000, 0xFFF0⟩, by decide, hop, rfl, harg⟩

/-! ## The table's masks -/

/-- The operand bits a format fixes (rule R51). -/
def argMaskOf : Format → Byte
  | .n => 0xFF
  | .b => 0x00
  | .i => 0xF0

theorem refusalOf_eq_none {f : Format} {arg : Byte} (h : arg &&& argMaskOf f = 0x00) :
    refusalOf f arg = none := by
  cases f with
  | n => revert h; revert arg; decide
  | b => rfl
  | i => revert h; revert arg; decide

/-- A word that matches a row has the row's opcode and an operand the row's format takes. -/
theorem fields_of_matches {row : OpcodeRow} (h : row ∈ opcodeTable) {w : CommandWord}
    (hw : w &&& row.mask = row.pattern) :
    opField w = row.op ∧ refusalOf row.format (argField w) = none := by
  have htable : ∀ row ∈ opcodeTable, row.mask = commandWord 0xFF (argMaskOf row.format) ∧
      row.pattern = commandWord row.op 0x00 := by decide
  obtain ⟨hmask, hpattern⟩ := htable row h
  have hand : commandWord (opField w &&& 0xFF) (argField w &&& argMaskOf row.format) =
      commandWord row.op 0x00 := by
    rw [← hpattern, ← hw, hmask]
    conv_rhs => rw [← commandWord_fields w]
    exact BitVec.and_append.symm
  have hop := congrArg opField hand
  have harg := congrArg argField hand
  simp only [opField_commandWord, argField_commandWord] at hop harg
  exact ⟨(BitVec.and_allOnes (x := opField w)).symm.trans hop, refusalOf_eq_none harg⟩

/-- The word of every command matches the row of its mnemonic: the laws of Laws/PerInstr.lean in one. -/
theorem encode_matches_row (i : Instr) : Laws.TableRow.Statement i := by
  cases i with
  | nop => exact Laws.TableRow.nop
  | srst => exact Laws.TableRow.srst
  | clrk => exact Laws.TableRow.clrk
  | clrd => exact Laws.TableRow.clrd
  | kpush d => exact Laws.TableRow.kpush d
  | dpush d => exact Laws.TableRow.dpush d
  | mpush d => exact Laws.TableRow.mpush d
  | enc => exact Laws.TableRow.enc
  | minit => exact Laws.TableRow.minit
  | mfinal => exact Laws.TableRow.mfinal
  | mabort => exact Laws.TableRow.mabort
  | rdout idx => exact Laws.TableRow.rdout idx
  | rdstat => exact Laws.TableRow.rdstat
  | rderr => exact Laws.TableRow.rderr

theorem row_eq_of_mnemonic_eq :
    ∀ r ∈ opcodeTable, ∀ r' ∈ opcodeTable, r.mnemonic = r'.mnemonic → r = r' := by
  decide

theorem matches_iff_decode {row : OpcodeRow} (h : row ∈ opcodeTable) (w : CommandWord) :
    w &&& row.mask = row.pattern ↔ ∃ i, decode w = .ok i ∧ i.mnemonic = row.mnemonic := by
  constructor
  · intro hw
    obtain ⟨hop, hr⟩ := fields_of_matches h hw
    obtain ⟨i, hi, hd⟩ := decodeFields_row h (argField w)
    refine ⟨i, ?_, hi⟩
    rw [decode, hop, hd, hr]; rfl
  · rintro ⟨i, hd, hi⟩
    obtain ⟨row', h', hm, hw⟩ := encode_matches_row i
    obtain rfl := row_eq_of_mnemonic_eq row' h' row h (hm.trans hi)
    rw [encode_of_decode hd] at hw
    exact beq_iff_eq.1 hw

/-! ## The legal words, counted as the commands -/

theorem legal_iff_encode (w : CommandWord) : w.legal = true ↔ ∃ i, encode i = w := by
  simp only [CommandWord.legal, List.any_eq_true]
  constructor
  · rintro ⟨row, h, hw⟩
    obtain ⟨i, hd, -⟩ := (matches_iff_decode h w).1 (beq_iff_eq.1 hw)
    exact ⟨i, encode_of_decode hd⟩
  · rintro ⟨i, rfl⟩
    obtain ⟨row, h, -, hw⟩ := encode_matches_row i
    exact ⟨row, h, hw⟩

/-- Every word of `n` bits, once. -/
def allBits (n : Nat) : List (BitVec n) := (List.finRange (2 ^ n)).map BitVec.ofFin

theorem mem_allBits {n : Nat} (b : BitVec n) : b ∈ allBits n :=
  List.mem_map.2 ⟨b.toFin, List.mem_finRange _, rfl⟩

theorem nodup_allBits (n : Nat) : (allBits n).Nodup :=
  (List.nodup_finRange _).map fun _ _ h => BitVec.ofFin.inj h

/-- Every command with every operand, once: 10 without one, 3 with a byte, 1 with an index. -/
def allCommands : List Instr :=
  ([.nop, .srst, .clrk, .clrd, .enc, .minit, .mfinal, .mabort, .rdstat, .rderr] : List Instr) ++
    (allBits 8).map Instr.kpush ++ (allBits 8).map Instr.dpush ++ (allBits 8).map Instr.mpush ++
    (allBits 4).map Instr.rdout

theorem mem_allCommands (i : Instr) : i ∈ allCommands := by
  cases i <;> simp [allCommands, mem_allBits]

theorem nodup_allCommands : allCommands.Nodup := by
  simp [allCommands, List.nodup_append, List.nodup_map_iff_inj_on, nodup_allBits, or_imp, forall_and]

theorem length_allCommands : allCommands.length = 794 := by
  simp [allCommands, allBits]

theorem legalWords_perm :
    ((List.range 65536).filter fun n => CommandWord.legal (BitVec.ofNat 16 n)).Perm
      (allCommands.map fun i => (encode i).toNat) := by
  have hinj : Function.Injective fun i => (encode i).toNat :=
    fun i j h => encode_injective (BitVec.eq_of_toNat_eq h)
  refine (List.perm_ext_iff_of_nodup (List.nodup_range.filter _) (nodup_allCommands.map hinj)).2
    fun n => ?_
  simp only [List.mem_filter, List.mem_range, List.mem_map, mem_allCommands, true_and, legal_iff_encode]
  constructor
  · rintro ⟨hn, i, hi⟩
    exact ⟨i, by rw [hi, BitVec.toNat_ofNat, Nat.mod_eq_of_lt hn]⟩
  · rintro ⟨i, rfl⟩
    exact ⟨(encode i).isLt, i, (BitVec.setWidth_eq _).symm.trans (BitVec.ofNat_toNat 16 _).symm⟩

/-- Settles O4: a row's words are those of its command, and the legal words are as many as the commands. -/
theorem decoderFollowsOpcodeTable : Obligations.DecoderFollowsOpcodeTable := by
  refine ⟨fun w row h => matches_iff_decode h w, ?_⟩
  rw [List.countP_eq_length_filter, legalWords_perm.length_eq, List.length_map, length_allCommands]

end Sys2Proof.Machine
end

section
/-!
PROOFS. The one response of every command (30_encoding.md rule R53): its fields, the byte a read returns, and
the response of fault entry and of the two reads a faulted engine executes (60_exceptions.md rule R178).
-/

namespace Sys2Proof.Machine

@[simp] theorem responseWord_high (f : Bool) (d : Byte) : (responseWord f d).extractLsb' 9 7 = 0 := by
  revert f d; decide

theorem responseWord_true (d : Byte) : responseWord true d = 0x0100 + d.setWidth 16 := by
  revert d; decide

/-- The byte a command answers (rule R53), with the tests of RDOUT. `exec_reads` ties it to `exec`. -/
def readByte : Instr → State → Byte
  | .rdout idx, s => if s.err = 0x00 ∧ s.ovalid = true then s.toEngine.resultByte idx else 0x00
  | .rdstat, s => s.status
  | .rderr, s => s.err
  | _, _ => 0x00

/-- A command that answers a next state answers its read byte, whatever it leaves of the engine. -/
theorem exec_reads {i : Instr} {s t : State} (h : exec i s = .next t) :
    ∃ e, t = s.answer e (readByte i s) := by
  cases i with
  | nop => exact ⟨_, execNop_next h⟩
  | srst => exact ⟨_, execSrst_next h⟩
  | rdstat => exact ⟨_, execRdstat_next h⟩
  | rderr => exact ⟨_, execRderr_next h⟩
  | clrk => obtain ⟨-, rfl⟩ | ⟨-, -, rfl⟩ | ⟨-, -, rfl⟩ := execClrk_next h <;> exact ⟨_, rfl⟩
  | clrd => obtain ⟨-, rfl⟩ | ⟨-, -, rfl⟩ | ⟨-, -, rfl⟩ := execClrd_next h <;> exact ⟨_, rfl⟩
  | kpush d => obtain ⟨-, rfl⟩ | ⟨-, -, rfl⟩ | ⟨-, -, rfl⟩ := execKpush_next h <;> exact ⟨_, rfl⟩
  | dpush d => obtain ⟨-, rfl⟩ | ⟨-, -, rfl⟩ | ⟨-, -, rfl⟩ := execDpush_next h <;> exact ⟨_, rfl⟩
  | mpush d => obtain ⟨-, rfl⟩ | ⟨-, -, -, rfl⟩ | ⟨-, -, rfl⟩ := execMpush_next h <;> exact ⟨_, rfl⟩
  | enc =>
    obtain ⟨-, rfl⟩ | ⟨-, -, -, -, rfl⟩ | ⟨-, -, rfl⟩ | ⟨-, -, -, rfl⟩ | ⟨-, -, -, -, rfl⟩ :=
      execEnc_next h <;> exact ⟨_, rfl⟩
  | minit =>
    obtain ⟨-, rfl⟩ | ⟨-, -, -, rfl⟩ | ⟨-, -, rfl⟩ | ⟨-, -, -, rfl⟩ := execMinit_next h <;>
      exact ⟨_, rfl⟩
  | mfinal => obtain ⟨-, rfl⟩ | ⟨-, -, -, rfl⟩ | ⟨-, -, rfl⟩ := execMfinal_next h <;> exact ⟨_, rfl⟩
  | mabort => obtain ⟨-, rfl⟩ | ⟨-, rfl⟩ := execMabort_next h <;> exact ⟨_, rfl⟩
  | rdout idx =>
    obtain ⟨hf, rfl⟩ | ⟨he, ho, rfl⟩ | ⟨-, ho, rfl⟩ := execRdout_next h
    · exact ⟨s.toEngine, by rw [readByte, if_neg fun hx => hf hx.1]; rfl⟩
    · exact ⟨s.toEngine, by simp [readByte, he, ho]⟩
    · exact ⟨s.toEngine.faultEntry .noOutput, by simp [readByte, ho, State.raise]⟩

theorem illegalWord_answers (s : State) : ∃ e, s.illegalWord = s.answer e 0x00 := by
  by_cases he : s.err = 0x00
  · rw [illegalWord_unfaulted he]; exact ⟨_, rfl⟩
  · rw [illegalWord_faulted he]; exact ⟨_, rfl⟩

/-- The byte an issued word is answered with: that of its command, `0x00` for an illegal word. -/
def responseByte (w : CommandWord) (s : State) : Byte :=
  match decode w with
  | .ok i => readByte i s
  | .error _ => 0x00

theorem command_reads {w : CommandWord} {s t : State} (h : command w s = .next t) :
    ∃ e, t = s.answer e (responseByte w s) := by
  unfold responseByte
  cases hw : decode w with
  | error why =>
    rw [command_illegal hw] at h
    cases h; exact illegalWord_answers s
  | ok i =>
    rw [command_decoded hw] at h
    exact exec_reads h

/-- The fields of the response to any answer, and what it leaves of the ports. -/
theorem answer_response (s : State) (e : Engine) (r : Byte) :
    (s.answer e r).inputs = s.inputs ∧
    ∃ rsp : ResponseWord, (s.answer e r).responses = s.responses ++ [rsp] ∧
      rsp.extractLsb' 9 7 = 0 ∧ (rsp.getLsbD 8 = true ↔ (s.answer e r).err ≠ 0x00) ∧
      rsp.extractLsb' 0 8 = r :=
  ⟨rfl, _, rfl, responseWord_high _ _,
    (Bool.eq_iff_iff.1 (responseWord_fault _ _)).trans e.faulted_iff, responseWord_data _ _⟩

/-! Fault entry: a command that finds no error and leaves one has raised it (rule R176). -/

theorem executes_raised {i : Instr} {s t : State} (h : Executes i s t) (hs : s.err = 0x00)
    (ht : t.err ≠ 0x00) : ∃ c, t = s.raise c := by
  obtain ⟨hf, -⟩ | @⟨c, -, hc⟩ | ⟨-, rfl⟩ := h
  · exact absurd hs hf
  · exact ⟨c, hc⟩
  · by_cases hi : i = .srst
    · subst hi; exact absurd rfl ht
    · exact absurd ((effectOf_err hi _).trans hs) ht

theorem command_raised {w : CommandWord} {s t : State} (h : command w s = .next t)
    (hs : s.err = 0x00) (ht : t.err ≠ 0x00) : ∃ c, t = s.raise c := by
  obtain rfl | ⟨i, -, hi⟩ := command_next h
  · exact ⟨_, illegalWord_unfaulted hs⟩
  · exact executes_raised hi hs ht

theorem raise_response (s : State) (c : EngineError) :
    (s.raise c).responses = s.responses ++ [0x0100] := by
  rw [State.raise_responses, Engine.faultEntry_faulted]; rfl

theorem Engine.Inv.status_of_faulted {e : Engine} (h : e.Inv) (he : e.err ≠ 0x00) : e.status = 0x80 := by
  obtain ⟨-, -, -, -, -, -, hk, hi, ho, hm⟩ := h.faultedZero he
  simp only [Engine.status, hk, hi, ho, hm, (Engine.faulted_iff e).2 he]
  decide

/-- A read in a faulted engine changes nothing and answers `0x0100` plus its byte. -/
theorem answer_faulted {s : State} (he : s.err ≠ 0x00) (r : Byte) :
    s.answer s.toEngine r = { s with responses := s.responses ++ [0x0100 + r.setWidth 16] } := by
  simp only [State.answer, (Engine.faulted_iff _).2 he, responseWord_true]

/-- Settles O11: the fields are those of the appended word, a faulting command has raised an error, and of a
faulted engine that meets rule R24 only FAULT shows in `STATUS`. -/
theorem everyCommandAnsweredOnce : Obligations.EveryCommandAnsweredOnce := by
  refine ⟨fun s t w h => ?_, fun s t w h hs ht => ?_, fun s hinv he => ⟨?_, ?_⟩⟩
  · obtain ⟨e, rfl⟩ := command_reads h
    obtain ⟨hin, rsp, hrsp, hhigh, hfault, hbyte⟩ := answer_response s e (responseByte w s)
    refine ⟨hin, rsp, hrsp, hhigh, hfault, hbyte.trans ?_⟩
    unfold responseByte
    cases decode w with
    | error why => rfl
    | ok i => cases i <;> rfl
  · obtain ⟨c, rfl⟩ := command_raised h hs ht
    exact raise_response s c
  · rw [command_decoded (i := .rdstat) (by decide)]
    exact congrArg _ ((answer_faulted he s.status).trans (by rw [hinv.status_of_faulted he]; rfl))
  · rw [command_decoded (i := .rderr) (by decide)]
    exact congrArg _ (answer_faulted he s.err)

end Sys2Proof.Machine
end

section
/-!
PROOFS. A state that meets 10_state.md rule R24 answers every word, so `step` is total there
(40_control_and_buffer_commands.md rule R70); and the mode a command leaves (rule R82).
-/

namespace Sys2Proof.Machine

/-! Every test of 60_exceptions.md rule R177 answers a next state, whichever way it goes. -/

theorem inModes_total {rule : ModeRule} {body : State → Result} {s : State}
    (hb : rule.allows s.mact = true → ∃ t, body s = .next t) : ∃ t, inModes rule body s = .next t := by
  by_cases he : s.err = 0x00
  · cases ha : rule.allows s.mact with
    | true => rw [inModes_allowed he ha]; exact hb ha
    | false => exact ⟨_, inModes_forbidden he ha⟩
  · exact ⟨_, inModes_faulted he⟩

theorem requireKey_total {body : State → Result} {s : State} (hb : ∃ t, body s = .next t) :
    ∃ t, requireKey body s = .next t := by
  unfold requireKey
  split
  · exact hb
  · exact ⟨_, rfl⟩

theorem requireBlock_total {body : State → Result} {s : State} (hb : ∃ t, body s = .next t) :
    ∃ t, requireBlock body s = .next t := by
  unfold requireBlock
  split
  · exact hb
  · exact ⟨_, rfl⟩

theorem requireOutput_total {body : State → Result} {s : State} (hb : ∃ t, body s = .next t) :
    ∃ t, requireOutput body s = .next t := by
  unfold requireOutput
  split
  · exact hb
  · exact ⟨_, rfl⟩

/-- MPUSH absorbs a full buffer first, so a count up to 16 leaves room for the byte (rule R126). -/
theorem absorbIfFull_room {e : Engine} (h : e.icnt.val ≤ 16) : e.absorbIfFull.icnt.val < 16 := by
  rw [Engine.absorbIfFull_icnt]
  split
  · decide
  · omega

/-- Only MPUSH and MFINAL can stop, and only in MAC mode with `ICNT = 17` (log entry 6). -/
theorem exec_total (i : Instr) {s : State} (h : s.mact = true → s.icnt.val ≤ 16) :
    ∃ t, exec i s = .next t := by
  cases i with unfold exec
  | srst | rdstat | rderr => exact ⟨_, rfl⟩
  | nop | clrk | clrd | kpush _ | dpush _ | mabort => exact inModes_total fun _ => ⟨_, rfl⟩
  | enc => exact inModes_total fun _ => requireKey_total (requireBlock_total ⟨_, rfl⟩)
  | minit => exact inModes_total fun _ => requireKey_total ⟨_, rfl⟩
  | rdout _ => exact inModes_total fun _ => requireOutput_total ⟨_, rfl⟩
  | mpush _ => exact inModes_total fun hm => ⟨_, if_pos (absorbIfFull_room (h hm))⟩
  | mfinal => exact inModes_total fun hm => ⟨_, if_pos (h hm)⟩

theorem command_total (w : CommandWord) {s : State} (h : s.mact = true → s.icnt.val ≤ 16) :
    ∃ t, command w s = .next t := by
  cases hw : decode w with
  | error _ => exact ⟨_, command_illegal hw s⟩
  | ok i => rw [command_decoded hw]; exact exec_total i h

theorem portCycle_total (p : PortCycle) {s : State} (h : s.mact = true → s.icnt.val ≤ 16) :
    ∃ t, portCycle p s = .next t := by
  cases hr : p.rstN with
  | false => exact ⟨_, portCycle_reset hr s⟩
  | true =>
    cases hv : p.cmdValid with
    | false => exact ⟨_, portCycle_idle hr hv s⟩
    | true => rw [portCycle_issued hr hv]; exact command_total p.cmd h

theorem step_total {s : State} (h : s.mact = true → s.icnt.val ≤ 16) : ∃ t, step s = .next t := by
  cases hin : s.inputs with
  | nil => exact ⟨s, step_nil hin⟩
  | cons p rest => rw [step_cons hin]; exact portCycle_total p h

/-- Settles O14: item 6 of rule R24 bounds `ICNT` in MAC mode, so the step answers; the next state meets rule
R24 by O13. -/
theorem invariantStatesAlwaysStep : Obligations.InvariantStatesAlwaysStep := by
  intro s hs
  have hcount : s.mact = true → s.icnt.val ≤ 16 := fun hm =>
    have ⟨_, _, hi, _⟩ := hs.macOpen hm
    hi
  obtain ⟨t, ht⟩ := step_total hcount
  exact ⟨t, ht, stepKeepsInvariant s t hs ht⟩

/-! ## The mode after a command -/

theorem Engine.mode_faulted {e : Engine} (h : e.err ≠ 0x00) : e.mode = .faulted :=
  if_pos ((Engine.faulted_iff e).2 h)

theorem Engine.mode_unfaulted {e : Engine} (h : e.err = 0x00) :
    e.mode = if e.mact then .mac else .idle := by
  simp [Engine.mode, (Engine.not_faulted_iff e).2 h]

/-- The mode after a command that leaves no error, given the mode before (rule R82). `effectOf_mode` ties it
to the effects. -/
def modeAfter : Instr → Mode → Mode
  | .minit, _ => .mac
  | .mfinal, _ | .mabort, _ | .srst, _ => .idle
  | .nop, m | .clrk, m | .clrd, m | .kpush _, m | .dpush _, m | .mpush _, m | .enc, m | .rdout _, m
  | .rdstat, m | .rderr, m => m

theorem modeAfter_of_not_writesSubkeys {i : Instr} (h : writesSubkeys i = false) (m : Mode) :
    modeAfter i m = m := by
  cases i with
  | minit | mfinal | mabort | srst => cases h
  | _ => rfl

/-- A command that does not write `MACT` leaves the mode, which reads `ERR` and `MACT` alone (rule R29). -/
theorem effectOf_mode_of_not_writesSubkeys {i : Instr} (h : writesSubkeys i = false) (e : Engine) :
    (effectOf i e).mode = e.mode := by
  have hi : i ≠ .srst := by rintro rfl; cases h
  obtain ⟨-, -, hmact⟩ := effectOf_subkeys h e
  by_cases he : e.err = 0x00
  · rw [Engine.mode_unfaulted he, Engine.mode_unfaulted ((effectOf_err hi e).trans he), hmact]
  · rw [Engine.mode_faulted he, Engine.mode_faulted ((effectOf_err hi e).trans_ne he)]

theorem effectOf_mode {i : Instr} {e : Engine} (h : (effectOf i e).err = 0x00) :
    (effectOf i e).mode = modeAfter i e.mode := by
  cases hw : writesSubkeys i with
  | false =>
    rw [modeAfter_of_not_writesSubkeys hw]
    exact effectOf_mode_of_not_writesSubkeys hw e
  | true =>
    rw [Engine.mode_unfaulted h]
    cases i with
    | minit | mfinal | mabort | srst => rfl
    | _ => cases hw

/-- A command that leaves no error was neither ignored nor faulting: it had its effect. -/
theorem executes_completed {i : Instr} {s t : State} (h : Executes i s t) (ht : t.err = 0x00) :
    t.toEngine = effectOf i s.toEngine := by
  obtain ⟨hf, rfl⟩ | @⟨c, -, rfl⟩ | ⟨-, rfl⟩ := h
  · exact absurd ht hf
  · exact absurd ht c.code_ne_zero
  · rfl

theorem illegalWord_err_ne_zero (s : State) : s.illegalWord.err ≠ 0x00 := by
  by_cases he : s.err = 0x00
  · rw [illegalWord_unfaulted he]; exact EngineError.illegalCommand.code_ne_zero
  · rw [illegalWord_faulted he]; exact he

theorem command_completed {w : CommandWord} {s t : State} (h : command w s = .next t)
    (ht : t.err = 0x00) : ∃ i, decode w = .ok i ∧ t.toEngine = effectOf i s.toEngine := by
  obtain rfl | ⟨i, hw, hi⟩ := command_next h
  · exact absurd ht (illegalWord_err_ne_zero s)
  · exact ⟨i, hw, executes_completed hi ht⟩

/-- Settles O36: with an error the mode is FAULTED; with none the word decoded and had its effect. -/
theorem modeTransitions : Obligations.ModeTransitions := by
  refine ⟨fun s t w h => ?_, fun s p hr => ⟨_, portCycle_reset hr s, rfl⟩⟩
  by_cases ht : t.err = 0x00
  · obtain ⟨i, hw, heff⟩ := command_completed h ht
    rw [heff] at ht
    rw [if_neg (not_not.2 (heff ▸ ht)), hw, heff, effectOf_mode ht]
    cases i <;> rfl
  · rw [if_pos ht, Engine.mode_faulted ht]

end Sys2Proof.Machine
end

section
/-!
PROOFS. The control commands, the byte pushes and the reads, each as its whole next state
(40_control_and_buffer_commands.md rules R71 to R79).
-/

namespace Sys2Proof.Machine

/-! ## Words and answers -/

theorem commandWord_toNat (op arg : Byte) :
    (commandWord op arg).toNat = op.toNat * 2 ^ 8 + arg.toNat := by
  calc (commandWord op arg).toNat
      = op.toNat <<< 8 ||| arg.toNat := BitVec.toNat_append op arg
    _ = op.toNat <<< 8 + arg.toNat := (Nat.shiftLeft_add_eq_or_of_lt arg.isLt op.toNat).symm
    _ = op.toNat * 2 ^ 8 + arg.toNat := by rw [Nat.shiftLeft_eq]

theorem commandWord_eq_add (op arg : Byte) :
    commandWord op arg = commandWord op 0x00 + arg.setWidth 16 := by
  have hzero : (0x00 : Byte).toNat = 0 := rfl
  apply BitVec.eq_of_toNat_eq
  simp only [BitVec.toNat_add, BitVec.toNat_setWidth, commandWord_toNat, hzero]
  omega

theorem responseWord_eq_add (f : Bool) (d : Byte) :
    responseWord f d = (if f then 0x0100 else 0x0000) + d.setWidth 16 := by
  revert f d; decide

/-- A command's answer with its response word written out (30_encoding.md rule R53). -/
theorem answer_eq (s : State) (e : Engine) (r : Byte) :
    s.answer e r = { s with
      toEngine := e
      responses := s.responses ++ [(if e.err = 0x00 then 0x0000 else 0x0100) + r.setWidth 16] } := by
  simp only [State.answer, responseWord_eq_add, Engine.faulted_iff, ite_not]

theorem answer_unfaulted {s : State} {e : Engine} (h : e.err = 0x00) (r : Byte) :
    s.answer e r = { s with toEngine := e, responses := s.responses ++ [r.setWidth 16] } := by
  have hzero (w : ResponseWord) : 0x0000 + w = w := BitVec.zero_add w
  rw [answer_eq, if_pos h, hzero]

/-! ## The mode test of the IDLE mode commands (60_exceptions.md rule R173) -/

section
variable {body : State → Result} {s : State}

/-- Test 3 of rule R177: the mode is the first test an unfaulted engine makes of a command. -/
theorem exec_forbidden {i : Instr} (he : s.err = 0x00)
    (ha : (modeRuleOf i).allows s.mact = false) : exec i s = .next (s.raise .sequenceError) := by
  cases i with
  | nop | srst | mabort | rdout _ | rdstat | rderr => cases ha
  | _ => unfold exec; exact inModes_forbidden he ha

theorem exec_idleOnly_mac {i : Instr} (hi : modeRuleOf i = .idleOnly) (he : s.err = 0x00)
    (hm : s.mact = true) : exec i s = .next (s.raise .sequenceError) :=
  exec_forbidden he (by rw [hi, hm]; rfl)

theorem requireOutput_present (h : s.ovalid = true) : requireOutput body s = body s := if_pos h

theorem requireOutput_absent (h : s.ovalid = false) :
    requireOutput body s = .next (s.raise .noOutput) :=
  if_neg (Bool.eq_false_iff.1 h)

/-- A command with the mode test alone, which has its effect in IDLE mode and answers `0x00`. -/
theorem exec_idleOnly_idle {i : Instr}
    (hx : exec i s = inModes .idleOnly (fun s => .next (s.answer (effectOf i s.toEngine) 0x00)) s)
    (hi : i ≠ .srst) (he : s.err = 0x00) (hm : s.mact = false) :
    exec i s = .next { s with
      toEngine := effectOf i s.toEngine
      responses := s.responses ++ [0x0000] } := by
  rw [hx, inModes_allowed he (by rw [hm]; rfl),
    answer_unfaulted ((effectOf_err hi s.toEngine).trans he)]
  rfl

end

/-! ## Control commands -/

/-- NOP while faulted is ignored, "which is the same thing" (rule R71). -/
theorem execNop_eq (s : State) : execNop s = .next (s.answer s.toEngine 0x00) := by
  by_cases he : s.err = 0x00
  · exact inModes_allowed he rfl
  · exact inModes_faulted he

/-- Settles O15: a faulted engine differs in bit 8 of the response alone. -/
theorem nopChangesNothing : Obligations.NopChangesNothing := by
  refine ⟨rfl, fun s => ?_, fun arg harg => (decode_commandWord 0x00 arg).trans (if_neg harg)⟩
  have hzero (w : ResponseWord) : w + (0x00 : Byte).setWidth 16 = w := BitVec.add_zero w
  exact (execNop_eq s).trans (congrArg _ ((answer_eq s s.toEngine 0x00).trans (by rw [hzero])))

/-- Settles O16: the tests do not stand before SRST, and the reset `ERR` is what RDERR then reads. -/
theorem srstRestoresReset : Obligations.SrstRestoresReset :=
  ⟨rfl, fun s => ⟨s.softReset, rfl, rfl,
    congrArg Host.Outcome.next (answer_unfaulted (s := s.softReset) rfl 0x00)⟩⟩

/-- Settles O17: in IDLE mode CLRD has its effect, in MAC mode the mode test forbids it. -/
theorem clrdClearsInput : Obligations.ClrdClearsInput :=
  ⟨rfl, fun _ he => ⟨exec_idleOnly_idle rfl nofun he, exec_idleOnly_mac rfl he⟩⟩

/-- Settles O19: as O17, with the effect of CLRK. -/
theorem clrkClearsKey : Obligations.ClrkClearsKey :=
  ⟨rfl, fun _ he => ⟨exec_idleOnly_idle rfl nofun he, exec_idleOnly_mac rfl he⟩⟩

/-! ## Byte pushes -/

theorem pushByte_eq_set {reg : Block} {c : Fin 18} {d : Byte} (h : c.val < 16) :
    pushByte reg c d = (reg.set c.val d h, c + 1) := by
  rw [pushByte_below h, putByte_eq_set h, countUp_eq_add_one h]

/-- Settles O18: KPUSH passes the mode test in IDLE mode only; `KCNT` says which way the push goes. -/
theorem kpushStoresKeyByte : Obligations.KpushStoresKeyByte := by
  refine fun d => ⟨commandWord_eq_add 0x10 d, fun s he => ⟨fun hm hc => ?_, fun hm hc => ?_,
    exec_idleOnly_mac rfl he⟩⟩
  · rw [exec_idleOnly_idle (i := .kpush d) rfl nofun he hm, effectOf, Engine.pushKey,
      pushByte_eq_set hc]
  · rw [exec_idleOnly_idle (i := .kpush d) rfl nofun he hm, effectOf, Engine.pushKey,
      pushByte_above hc]

/-- Settles O20: as O18, with `IBUF` and `ICNT`. -/
theorem dpushStoresBlockByte : Obligations.DpushStoresBlockByte := by
  refine fun d => ⟨commandWord_eq_add 0x11 d, fun s he => ⟨fun hm hc => ?_, fun hm hc => ?_,
    exec_idleOnly_mac rfl he⟩⟩
  · rw [exec_idleOnly_idle (i := .dpush d) rfl nofun he hm, effectOf, Engine.pushInput,
      pushByte_eq_set hc]
  · rw [exec_idleOnly_idle (i := .dpush d) rfl nofun he hm, effectOf, Engine.pushInput,
      pushByte_above hc]

/-! ## Reads -/

theorem encode_rdout (idx : BitVec 4) : encode (.rdout idx) = 0x3000 + idx.setWidth 16 := by
  revert idx; decide

theorem highNibble_ne_zero {arg : Byte} (h : 0x10 ≤ arg.toNat) : arg.extractLsb' 4 4 ≠ 0 := by
  revert h; revert arg; decide

/-- Settles O21: RDOUT passes the mode test in both modes, so `OVALID` alone decides. -/
theorem rdoutReadsResult : Obligations.RdoutReadsResult := by
  refine ⟨fun idx => ⟨encode_rdout idx, fun s he => ⟨fun ho => ?_, fun ho => ?_⟩⟩, fun arg harg => ?_⟩
  · calc exec (.rdout idx) s
        = .next (s.answer s.toEngine (s.toEngine.resultByte idx)) :=
          (inModes_allowed he rfl).trans (requireOutput_present ho)
      _ = _ := congrArg _ (answer_unfaulted he _)
  · exact (inModes_allowed he rfl).trans (requireOutput_absent ho)
  · exact (decode_commandWord 0x30 arg).trans (if_neg (highNibble_ne_zero harg))

/-- The response to a `STATUS` byte: each bit in its place, and bit 8 repeats bit 7 (rules R21, R78). -/
theorem responseWord_statusBits (k i o m f : Bool) :
    responseWord f (flagBit k 0 ||| flagBit i 1 ||| flagBit o 2 ||| flagBit m 3 ||| flagBit f 7) =
      (if k then 0x0001 else 0) + (if i then 0x0002 else 0) + (if o then 0x0004 else 0) +
        (if m then 0x0008 else 0) + (if f then 0x0180 else 0) := by
  revert k i o m f; decide

/-- Settles O22: RDSTAT has no test before it; item 1 of rule R24 gives the faulted `STATUS`. -/
theorem rdstatReadsStatus : Obligations.RdstatReadsStatus := by
  refine ⟨rfl, fun s => ?_, fun s hinv he => hinv.status_of_faulted he⟩
  have hrsp := responseWord_statusBits (s.kcnt.val == 16) (s.icnt.val == 16) s.ovalid s.mact s.faulted
  simp only [beq_iff_eq, Engine.faulted_iff] at hrsp
  rw [← hrsp]; rfl

/-- Settles O23: RDERR has no test before it and leaves the engine. -/
theorem rderrReadsCode : Obligations.RderrReadsCode :=
  ⟨rfl, fun s => congrArg _ (answer_eq s s.toEngine s.err)⟩

end Sys2Proof.Machine
end

section
/-!
PROOFS. The field GF(2^8) of the S-box, and the S-box as the affine map of the inverse
(41_aes128_encrypt.md rules R91 and R92). `mul` is bilinear over `xor` and turns the powers of `x` into
repeated `xtime`; its laws follow, since every byte is an `xor` of such powers.
-/

namespace Sys2Proof.Machine.GF256

/-! ## xtime -/

theorem xtime_xor (a b : Byte) : xtime (a ^^^ b) = xtime a ^^^ xtime b := by
  have hreduce : ∀ p q : Bool, (if p ^^ q then 0x1b else 0x00 : Byte) =
      (if p then 0x1b else 0x00) ^^^ (if q then 0x1b else 0x00) := by decide
  unfold xtime
  rw [BitVec.shiftLeft_xor_distrib, BitVec.msb_xor, hreduce]
  ac_rfl

@[simp] theorem xtime_zero : xtime 0x00 = 0x00 := rfl

theorem xtimes_xor (j : Nat) (a b : Byte) : xtimes j (a ^^^ b) = xtimes j a ^^^ xtimes j b := by
  induction j with
  | zero => rfl
  | succ j ih => exact (congrArg xtime ih).trans (xtime_xor _ _)

theorem xtimes_eq_iterate (j : Nat) (a : Byte) : xtimes j a = xtime^[j] a := by
  induction j with
  | zero => rfl
  | succ j ih => rw [Function.iterate_succ_apply', ← ih, xtimes]

theorem xtimes_xtime (j : Nat) (a : Byte) : xtimes j (xtime a) = xtime (xtimes j a) := by
  induction j with
  | zero => rfl
  | succ j ih => exact congrArg xtime ih

/-! ## mul as a sum of terms -/

/-- The `xor` of `f j` over the list. -/
def xorOver (js : List Nat) (f : Nat → Byte) : Byte := (js.map f).foldr (fun x y => x ^^^ y) 0x00

/-- The term of `mul(a, b)` for bit `j` of `b` (rule R91); `mul_eq_xorOver` ties it to `mul`. -/
def mulTerm (a b : Byte) (j : Nat) : Byte := if b.getLsbD j then xtimes j a else 0x00

theorem xorOver_xor (js : List Nat) (f g : Nat → Byte) :
    xorOver js (fun j => f j ^^^ g j) = xorOver js f ^^^ xorOver js g := by
  induction js with
  | nil => exact BitVec.xor_zero.symm
  | cons j js ih =>
    calc xorOver (j :: js) (fun j => f j ^^^ g j)
        = (f j ^^^ g j) ^^^ (xorOver js f ^^^ xorOver js g) := congrArg _ ih
      _ = (f j ^^^ xorOver js f) ^^^ (g j ^^^ xorOver js g) := by ac_rfl

theorem mul_eq_xorOver (a b : Byte) : mul a b = xorOver (List.range 8) (mulTerm a b) := by
  have hstep : (fun acc j => if b.getLsbD j then acc ^^^ xtimes j a else acc) =
      fun acc j => acc ^^^ mulTerm a b j := by
    funext acc j
    unfold mulTerm
    split
    · rfl
    · exact BitVec.xor_zero.symm
  rw [mul, hstep, xorOver, ← List.foldl_eq_foldr, List.foldl_map]

theorem mulTerm_xor_right (a b c : Byte) (j : Nat) :
    mulTerm a (b ^^^ c) j = mulTerm a b j ^^^ mulTerm a c j := by
  simp only [mulTerm, BitVec.getLsbD_xor]
  cases b.getLsbD j <;> cases c.getLsbD j <;> simp

theorem mulTerm_xor_left (a b c : Byte) (j : Nat) :
    mulTerm (a ^^^ b) c j = mulTerm a c j ^^^ mulTerm b c j := by
  simp only [mulTerm, xtimes_xor]
  split
  · rfl
  · exact BitVec.xor_zero.symm

theorem mulTerm_xtime_left (a b : Byte) (j : Nat) : mulTerm (xtime a) b j = xtime (mulTerm a b j) := by
  unfold mulTerm
  split
  · exact xtimes_xtime j a
  · exact xtime_zero.symm

theorem xorOver_xtime (js : List Nat) (f : Nat → Byte) :
    xorOver js (fun j => xtime (f j)) = xtime (xorOver js f) := by
  induction js with
  | nil => exact xtime_zero.symm
  | cons j js ih => exact (congrArg _ ih).trans (xtime_xor _ _).symm

/-! ## mul is bilinear -/

theorem mul_xor (a b c : Byte) : mul a (b ^^^ c) = mul a b ^^^ mul a c := by
  simp only [mul_eq_xorOver, ← xorOver_xor, ← mulTerm_xor_right]

theorem xor_mul (a b c : Byte) : mul (a ^^^ b) c = mul a c ^^^ mul b c := by
  simp only [mul_eq_xorOver, ← xorOver_xor, ← mulTerm_xor_left]

@[simp] theorem mul_zero (a : Byte) : mul a 0x00 = 0x00 := rfl

@[simp] theorem zero_mul (a : Byte) : mul 0x00 a = 0x00 := by
  have h := xor_mul 0x00 0x00 a
  rwa [BitVec.xor_self, BitVec.xor_self] at h

theorem xtime_mul (a b : Byte) : mul (xtime a) b = xtime (mul a b) := by
  simp only [mul_eq_xorOver, ← xorOver_xtime, ← mulTerm_xtime_left]

theorem xtimes_mul (j : Nat) (a b : Byte) : mul (xtimes j a) b = xtimes j (mul a b) := by
  induction j with
  | zero => rfl
  | succ j ih => exact (xtime_mul _ b).trans (congrArg xtime ih)

/-! ## Every byte is an xor of powers of `x` -/

theorem one_mul (a : Byte) : mul 0x01 a = a := by
  revert a; decide

/-- `mul(a, x^j)` is `xtime` applied `j` times: bit `j` alone is set in `x^j`. -/
theorem mul_xtimes_one (a : Byte) {j : Nat} (hj : j < 8) : mul a (xtimes j 0x01) = xtimes j a := by
  interval_cases j <;> exact BitVec.zero_xor

theorem xorOver_induction {P : Byte → Prop} {js : List Nat} {f : Nat → Byte} (zero : P 0x00)
    (xor : ∀ a b, P a → P b → P (a ^^^ b)) (term : ∀ j ∈ js, P (f j)) : P (xorOver js f) := by
  induction js with
  | nil => exact zero
  | cons j js ih =>
    exact xor _ _ (term j List.mem_cons_self) (ih fun i hi => term i (List.mem_cons_of_mem j hi))

/-- What holds of zero and of the powers `x^0` to `x^7`, and is kept by `xor`, holds of every byte. -/
theorem byte_induction {P : Byte → Prop} (zero : P 0x00) (xor : ∀ a b, P a → P b → P (a ^^^ b))
    (power : ∀ j < 8, P (xtimes j 0x01)) (a : Byte) : P a := by
  rw [← one_mul a, mul_eq_xorOver]
  refine xorOver_induction zero xor fun j hj => ?_
  unfold mulTerm
  split
  · exact power j (List.mem_range.1 hj)
  · exact zero

theorem mul_comm (a b : Byte) : mul a b = mul b a := by
  induction b using byte_induction with
  | zero => exact (zero_mul a).symm
  | xor b c hb hc => rw [mul_xor, xor_mul, hb, hc]
  | power j hj => rw [mul_xtimes_one a hj, xtimes_mul, one_mul]

theorem mul_assoc (a b c : Byte) : mul (mul a b) c = mul a (mul b c) := by
  induction a using byte_induction with
  | zero => simp only [zero_mul]
  | xor a d ha hd => simp only [xor_mul, ha, hd]
  | power j _ => simp only [xtimes_mul, one_mul]

theorem mul_one (a : Byte) : mul a 0x01 = a := (mul_comm a 0x01).trans (one_mul a)

theorem mul_two (a : Byte) : mul a 0x02 = xtime a := mul_xtimes_one a (j := 1) (by decide)

theorem mul_three (a : Byte) : mul a 0x03 = xtime a ^^^ a := by
  calc mul a 0x03 = mul a 0x02 ^^^ mul a 0x01 := mul_xor a 0x02 0x01
    _ = xtime a ^^^ a := by rw [mul_two, mul_one]

/-! ## The inverse and the S-box -/

/-- The inverse of the affine map `A` of rule R92; `affine_unaffine` ties it to `affine`. -/
def unaffine (v : Byte) : Byte := v.rotateLeft 1 ^^^ v.rotateLeft 3 ^^^ v.rotateLeft 6 ^^^ 0x05

theorem affine_unaffine (v : Byte) : affine (unaffine v) = v := by
  revert v; decide

/-- The S-box table holds an inverse of every non-zero byte. -/
theorem mul_unaffine_sbox {a : Byte} (h : a ≠ 0x00) : mul a (unaffine (sbox a)) = 0x01 := by
  revert a; decide

theorem inverse_unique {a b c : Byte} (hb : mul a b = 0x01) (hc : mul a c = 0x01) : b = c := by
  calc b = mul b (mul a c) := by rw [hc, mul_one]
    _ = mul (mul a b) c := by rw [← mul_assoc, mul_comm b a]
    _ = c := by rw [hb, one_mul]

theorem mem_byteValues (b : Byte) : b ∈ byteValues :=
  List.mem_map.2 ⟨b.toNat, List.mem_range.2 b.isLt, by simp⟩

/-- The search of `inv` ends at the inverse where there is one. -/
theorem eq_inv_of_mul_eq_one {a b : Byte} (h : mul a b = 0x01) : b = inv a := by
  cases hf : byteValues.find? fun b => mul a b == 0x01 with
  | none => exact absurd (beq_iff_eq.2 h) (List.find?_eq_none.1 hf b (mem_byteValues b))
  | some c =>
    have hc := List.find?_some hf
    rw [inv, hf, Option.getD_some]
    exact inverse_unique h (beq_iff_eq.1 hc)

@[simp] theorem inv_zero : inv 0x00 = 0x00 := by
  have hf : (byteValues.find? fun b => mul 0x00 b == 0x01) = none :=
    List.find?_eq_none.2 fun b _ => by rw [zero_mul]; decide
  rw [inv, hf, Option.getD_none]

theorem mul_inv {a : Byte} (h : a ≠ 0x00) : mul a (inv a) = 0x01 := by
  rw [← eq_inv_of_mul_eq_one (mul_unaffine_sbox h), mul_unaffine_sbox h]

theorem inv_involutive : Function.Involutive inv := fun a => by
  by_cases h : a = 0x00
  · rw [h, inv_zero, inv_zero]
  · exact (eq_inv_of_mul_eq_one ((mul_comm (inv a) a).trans (mul_inv h))).symm

/-- Rule R92's definition of the S-box, with the affine map taken to the other side. -/
theorem inv_eq_unaffine_sbox (a : Byte) : inv a = unaffine (sbox a) := by
  by_cases h : a = 0x00
  · rw [h]; exact inv_zero
  · exact (eq_inv_of_mul_eq_one (mul_unaffine_sbox h)).symm

theorem sbox_eq_affine_inv (a : Byte) : sbox a = affine (inv a) := by
  rw [inv_eq_unaffine_sbox, affine_unaffine]

theorem sbox_injective : Function.Injective sbox := fun a b h =>
  inv_involutive.injective (by rw [inv_eq_unaffine_sbox, h, ← inv_eq_unaffine_sbox])

/-- The sum of rule R91 with its terms indexed by the bits of a byte. -/
theorem mul_eq_foldr (a b : Byte) : mul a b =
    (List.ofFn fun j : Fin 8 => if b.getLsbD j.val then xtime^[j.val] a else 0x00).foldr
      (fun x y => x ^^^ y) 0x00 := by
  simp only [← xtimes_eq_iterate]
  exact mul_eq_xorOver a b

/-- Settles O42: the laws from bilinearity, the inverse from the S-box table and associativity. -/
theorem fieldLaws : Obligations.FieldLaws :=
  ⟨fun _ => rfl, mul_eq_foldr, mul_comm, mul_assoc, mul_xor,
    fun a => ⟨mul_zero a, mul_one a, mul_two a, mul_three a⟩,
    fun _ ha => ⟨mul_inv ha, fun _ => eq_inv_of_mul_eq_one⟩, inv_zero, by decide⟩

/-- Settles O41: the table is a permutation because `inv` is its own inverse. -/
theorem sboxIsAffineOfInverse : Obligations.SboxIsAffineOfInverse :=
  ⟨sbox_eq_affine_inv, fun _ _ h => sbox_injective h, by decide⟩

end Sys2Proof.Machine.GF256
end

section
/-!
PROOFS. The flat block and the state array (41_aes128_encrypt.md rules R90 and R93 to R95).
-/

namespace Sys2Proof.Machine

@[simp] theorem loadArray_getElem (b : Block) {r c : Nat} (hr : r < 4) (hc : c < 4) :
    (loadArray b)[r][c] = b[r + 4 * c] := by
  simp [loadArray]

@[simp] theorem unloadArray_getElem (s : StateArray) {i : Nat} (hi : i < 16) :
    (unloadArray s)[i] = (s[i % 4]'(by omega))[i / 4]'(by omega) :=
  Vector.getElem_ofFn hi

@[simp] theorem subBytesArray_getElem (s : StateArray) {r c : Nat} (hr : r < 4) (hc : c < 4) :
    (subBytesArray s)[r][c] = sbox s[r][c] := by
  simp [subBytesArray]

@[simp] theorem shiftRowsArray_getElem (s : StateArray) {r c : Nat} (hr : r < 4) (hc : c < 4) :
    (shiftRowsArray s)[r][c] = s[r][(c + r) % 4]'(by omega) := by
  simp [shiftRowsArray]

theorem mulBy2_eq_mul (a : Byte) : mulBy2 a = mul a 0x02 := (GF256.mul_two a).symm

theorem mulBy3_eq_mul (a : Byte) : mulBy3 a = mul a 0x03 := (GF256.mul_three a).symm

/-- One row of the mixed column, with `mul` by 2 and 3 computed by `xtime` (rules R91 and R95). -/
@[simp] theorem mixColumnsArray_getElem (s : StateArray) {r c : Nat} (hr : r < 4) (hc : c < 4) :
    (mixColumnsArray s)[r][c] = mixRow s[0][c] s[1][c] s[2][c] s[3][c] r := by
  interval_cases r <;> simp [mixColumnsArray, mixRow, mulBy2_eq_mul, mulBy3_eq_mul]

@[simp] theorem subBytes_getElem (t : Block) {i : Nat} (hi : i < 16) :
    (subBytes t)[i] = sbox t[i] :=
  Vector.getElem_ofFn hi

@[simp] theorem shiftRows_getElem (t : Block) {i : Nat} (hi : i < 16) :
    (shiftRows t)[i] = t[i % 4 + 4 * ((i / 4 + i % 4) % 4)]'(by omega) :=
  Vector.getElem_ofFn hi

@[simp] theorem mixColumns_getElem (t : Block) {i : Nat} (hi : i < 16) :
    (mixColumns t)[i] = mixRow (t[4 * (i / 4)]'(by omega)) (t[4 * (i / 4) + 1]'(by omega))
      (t[4 * (i / 4) + 2]'(by omega)) (t[4 * (i / 4) + 3]'(by omega)) (i % 4) :=
  Vector.getElem_ofFn hi

/-- Settles O43, at each index `i`: byte `i` of a block is row `i mod 4` of column `i / 4` of its array. -/
theorem flatFormIsStateArrayForm : Obligations.FlatFormIsStateArrayForm := by
  refine fun b => ⟨?_, ?_, ?_, ?_⟩ <;> apply Vector.ext <;> intro i hi
  · simp [Nat.mod_add_div]
  · simp [Nat.mod_add_div]
  · simp
  · simp [Nat.add_comm]

end Sys2Proof.Machine
end

section
/-!
PROOFS. The key schedule and the round keys (41_aes128_encrypt.md rules R97 to R99).
-/

namespace Sys2Proof.Machine

/-- The schedule after `n` words beyond the key; `keyExpansion_eq` ties it to `keyExpansion`. -/
def keyScheduleUpTo (k : Block) (n : Nat) : List AesWord :=
  (List.range' 4 n).foldl (fun ws i => ws ++ [nextKeyWord ws i])
    [keyWord k 0, keyWord k 1, keyWord k 2, keyWord k 3]

theorem keyExpansion_eq (k : Block) : keyExpansion k = keyScheduleUpTo k 40 := rfl

theorem keyScheduleUpTo_succ (k : Block) (n : Nat) :
    keyScheduleUpTo k (n + 1) = keyScheduleUpTo k n ++ [nextKeyWord (keyScheduleUpTo k n) (4 + n)] := by
  unfold keyScheduleUpTo
  rw [List.range'_concat, List.foldl_append, Nat.one_mul]
  rfl

theorem length_keyScheduleUpTo (k : Block) (n : Nat) : (keyScheduleUpTo k n).length = 4 + n := by
  induction n with
  | zero => rfl
  | succ n ih => rw [keyScheduleUpTo_succ, List.length_append, ih]; rfl

theorem keyScheduleUpTo_isPrefix (k : Block) {m n : Nat} (h : m ≤ n) :
    keyScheduleUpTo k m <+: keyScheduleUpTo k n := by
  induction n, h using Nat.le_induction with
  | base => exact List.prefix_rfl
  | succ n _ ih => rw [keyScheduleUpTo_succ]; exact ih.trans (List.prefix_append _ _)

theorem wordAt_of_isPrefix {ws vs : List AesWord} (h : ws <+: vs) {i : Nat} (hi : i < ws.length) :
    wordAt vs i = wordAt ws i := by
  obtain ⟨us, rfl⟩ := h
  exact List.getD_append _ _ _ _ hi

/-- The next word looks back only, so it is the same from a longer list with the same beginning. -/
theorem nextKeyWord_of_isPrefix {ws vs : List AesWord} (h : ws <+: vs) {i : Nat} (h4 : 4 ≤ i)
    (hi : i ≤ ws.length) : nextKeyWord vs i = nextKeyWord ws i := by
  unfold nextKeyWord
  rw [wordAt_of_isPrefix h (i := i - 1) (by omega), wordAt_of_isPrefix h (i := i - 4) (by omega)]

theorem length_keyExpansion (k : Block) : (keyExpansion k).length = 44 := length_keyScheduleUpTo k 40

theorem wordAt_keyExpansion_key (k : Block) (i : Fin 4) :
    wordAt (keyExpansion k) i.val = keyWord k i := by
  have h := keyScheduleUpTo_isPrefix k (Nat.zero_le 40)
  rw [keyExpansion_eq, wordAt_of_isPrefix h ((length_keyScheduleUpTo k 0).symm ▸ i.isLt)]
  fin_cases i <;> rfl

theorem wordAt_keyExpansion_next (k : Block) {i : Nat} (h4 : 4 ≤ i) (hi : i < 44) :
    wordAt (keyExpansion k) i = nextKeyWord (keyExpansion k) i := by
  obtain ⟨n, rfl⟩ := Nat.exists_eq_add_of_le h4
  have hlen := length_keyScheduleUpTo k n
  have hnow : keyScheduleUpTo k n <+: keyExpansion k := keyScheduleUpTo_isPrefix k (by omega : n ≤ 40)
  have hnext : keyScheduleUpTo k (n + 1) <+: keyExpansion k :=
    keyScheduleUpTo_isPrefix k (by omega : n + 1 ≤ 40)
  calc wordAt (keyExpansion k) (4 + n)
      = wordAt (keyScheduleUpTo k (n + 1)) (4 + n) :=
        wordAt_of_isPrefix hnext (by rw [length_keyScheduleUpTo]; omega)
    _ = nextKeyWord (keyScheduleUpTo k n) (4 + n) := by
        simp [keyScheduleUpTo_succ, wordAt, ← hlen]
    _ = nextKeyWord (keyExpansion k) (4 + n) :=
        (nextKeyWord_of_isPrefix hnow h4 hlen.ge).symm

/-- Settles O44: the schedule grows by one word at a time, each computed from the words before it. -/
theorem keyScheduleRecurrence : Obligations.KeyScheduleRecurrence := fun k =>
  ⟨length_keyExpansion k, wordAt_keyExpansion_key k, fun _ => wordAt_keyExpansion_next k⟩

@[simp] theorem roundKey_getElem (ws : List AesWord) (r : Nat) {i : Nat} (hi : i < 16) :
    (roundKey ws r)[i] = wordByte (wordAt ws (4 * r + i / 4)) (i % 4) :=
  Vector.getElem_ofFn hi

theorem wordByte_keyWord (k : Block) (i : Fin 4) {j : Nat} (hj : j < 4) :
    wordByte (keyWord k i) j = k[4 * i.val + j] := by
  interval_cases j <;> rfl

theorem roundKey_zero (k : Block) : roundKey (keyExpansion k) 0 = k := by
  ext i hi
  have hword := wordAt_keyExpansion_key k ⟨i / 4, by omega⟩
  have hbyte := wordByte_keyWord k ⟨i / 4, by omega⟩ (Nat.mod_lt i (by decide))
  simp only [Nat.div_add_mod] at hword hbyte
  rw [roundKey_getElem, Nat.mul_zero, Nat.zero_add, hword, hbyte]

/-- Byte `4c + j` of round key `r` is byte `j` of word `4r + c` (rule R99). -/
theorem roundKey_column (ws : List AesWord) (r : Nat) (c : Fin 4) {j : Nat} (hj : j < 4) :
    (roundKey ws r)[4 * c.val + j] = wordByte (wordAt ws (4 * r + c.val)) j := by
  have hc : (4 * c.val + j) / 4 = c.val := by omega
  have hr : (4 * c.val + j) % 4 = j := by omega
  rw [roundKey_getElem, hc, hr]

/-- Settles O45: the layout holds of every list of words, so the bound on `r` is not needed. -/
theorem roundKeyLayout : Obligations.RoundKeyLayout :=
  ⟨roundKey_zero, fun k r c _ =>
    have byte {j : Nat} (hj : j < 4) := roundKey_column (keyExpansion k) r c hj
    ⟨byte (j := 0) (by decide), byte (j := 1) (by decide), byte (j := 2) (by decide),
      byte (j := 3) (by decide)⟩⟩

end Sys2Proof.Machine
end

section
/-!
PROOFS. The cipher on the published examples, and ENC (41_aes128_encrypt.md rules R100 and R101).
-/

namespace Sys2Proof.Machine

/-- Settles O40, by evaluation of the model on the three examples. -/
theorem cipherExamples : Obligations.CipherExamples :=
  ⟨by decide +kernel, by decide +kernel, by decide +kernel⟩

section
variable {body : State → Result} {s : State}

theorem requireKey_full (h : s.kcnt.val = 16) : requireKey body s = body s := if_pos h

theorem requireBlock_full (h : s.icnt.val = 16) : requireBlock body s = body s := if_pos h

theorem requireBlock_other (h : s.icnt.val ≠ 16) :
    requireBlock body s = .next (s.raise .invalidBlockLength) := if_neg h

end

/-- Settles O24: the tests of rule R177 in their order, and then the effect of ENC. -/
theorem encEncryptsBlock : Obligations.EncEncryptsBlock := by
  refine ⟨rfl, fun s he => ⟨exec_idleOnly_mac rfl he, fun hm hk => ?_, fun hm hk hi => ?_,
    fun hm hk hi => ?_⟩⟩ <;>
    refine (inModes_allowed he (by rw [hm]; rfl)).trans ?_
  · exact requireKey_short hk
  · exact (requireKey_full hk).trans (requireBlock_other hi)
  · have hdone := answer_unfaulted (s := s) (e := s.toEngine.encrypt) he 0x00
    exact (requireKey_full hk).trans ((requireBlock_full hi).trans (congrArg _ hdone))

end Sys2Proof.Machine
end

section
/-!
PROOFS. The CMAC commands, each as its whole next state (42_cmac.md rules R125 to R128).
-/

namespace Sys2Proof.Machine

/-- On an engine `e` the command `i` passes its tests, has its effect and answers `0x0000`, whatever the port
has seen (60_exceptions.md rule R177). -/
def Completes (i : Instr) (e : Engine) : Prop :=
  ∀ (cycles : List PortCycle) (given : List ResponseWord),
    exec i ⟨e, cycles, given⟩ = .next ⟨effectOf i e, cycles, given ++ [0x0000]⟩

section
variable {e : Engine}

/-- A command in a mode its rule allows completes where what follows the mode test does. -/
theorem completes_of_body {i : Instr} {rule : ModeRule} {body : State → Result}
    (hx : ∀ s, exec i s = inModes rule body s) (hi : i ≠ .srst) (he : e.err = 0x00)
    (ha : rule.allows e.mact = true)
    (hb : ∀ cycles given, body ⟨e, cycles, given⟩ =
      .next (State.answer ⟨e, cycles, given⟩ (effectOf i e) 0x00)) :
    Completes i e := fun cycles given => by
  rw [hx, inModes_allowed he ha, hb, answer_unfaulted ((effectOf_err hi e).trans he)]
  rfl

theorem completes_minit (he : e.err = 0x00) (hm : e.mact = false) (hk : e.kcnt.val = 16) :
    Completes .minit e :=
  completes_of_body (fun _ => rfl) nofun he (by rw [hm]; rfl) fun _ _ => requireKey_full hk

theorem completes_mpush (he : e.err = 0x00) (hm : e.mact = true) (hi : e.icnt.val ≤ 16) (d : Byte) :
    Completes (.mpush d) e :=
  completes_of_body (fun _ => rfl) nofun he hm fun _ _ => if_pos (absorbIfFull_room hi)

theorem completes_mfinal (he : e.err = 0x00) (hm : e.mact = true) (hi : e.icnt.val ≤ 16) :
    Completes .mfinal e :=
  completes_of_body (fun _ => rfl) nofun he hm fun _ _ => if_pos hi

theorem completes_mabort (he : e.err = 0x00) : Completes .mabort e :=
  completes_of_body (fun _ => rfl) nofun he rfl fun _ _ => rfl

theorem absorbIfFull_full (h : e.icnt.val = 16) : e.absorbIfFull = e.absorb := if_pos h

theorem absorbIfFull_notFull (h : e.icnt.val < 16) : e.absorbIfFull = e := if_neg h.ne

theorem storeMessage_eq (h : e.icnt.val < 16) (d : Byte) :
    e.storeMessage d = { e with ibuf := e.ibuf.set e.icnt.val d h, icnt := e.icnt + 1 } := by
  rw [Engine.storeMessage, putByte_eq_set h, countUp_eq_add_one h]

theorem finalBlock_full (h : e.icnt.val = 16) : e.finalBlock = blockXor e.ibuf e.k1 := if_pos h

theorem finalBlock_padded (h : e.icnt.val < 16) :
    e.finalBlock = blockXor (e.ibuf.set e.icnt.val 0x80 h) e.k2 := by
  rw [Engine.finalBlock, if_neg h.ne, putByte_eq_set h]

end

theorem exec_macOnly_idle {i : Instr} {s : State} (hi : modeRuleOf i = .macOnly) (he : s.err = 0x00)
    (hm : s.mact = false) : exec i s = .next (s.raise .sequenceError) :=
  exec_forbidden he (by rw [hi, hm]; rfl)

/-- Settles O25: the mode test, the key test, and then the effect of MINIT. -/
theorem minitOpensMac : Obligations.MinitOpensMac := by
  refine ⟨rfl, fun s he => ⟨exec_idleOnly_mac rfl he, fun hm hk => ?_, fun hm hk => ?_⟩⟩
  · exact (inModes_allowed he (by rw [hm]; rfl)).trans (requireKey_short hk)
  · exact completes_minit he hm hk s.inputs s.responses

/-- Settles O26: `ICNT` says whether the buffer is absorbed before the byte is stored. -/
theorem mpushAppendsMessageByte : Obligations.MpushAppendsMessageByte := by
  refine fun d => ⟨commandWord_eq_add 0x12 d, fun s he => ⟨fun hm hi => ?_, fun hm hi => ?_,
    exec_macOnly_idle rfl he⟩⟩
  · refine (completes_mpush he hm hi.le d s.inputs s.responses).trans ?_
    rw [effectOf, absorbIfFull_notFull hi, storeMessage_eq hi]
  · refine (completes_mpush he hm hi.le d s.inputs s.responses).trans ?_
    rw [effectOf, absorbIfFull_full hi, storeMessage_eq (e := s.absorb) (Nat.zero_lt_succ 15)]
    rfl

/-- Settles O27: `ICNT` says which subkey the last block takes. -/
theorem mfinalWritesTag : Obligations.MfinalWritesTag := by
  refine ⟨rfl, fun s he => ⟨fun hm hi => ?_, fun hm hi => ?_, exec_macOnly_idle rfl he⟩⟩
  · rw [← finalBlock_full hi]
    exact completes_mfinal he hm hi.le s.inputs s.responses
  · rw [← finalBlock_padded hi]
    exact completes_mfinal he hm hi.le s.inputs s.responses

/-- Settles O28: MABORT is allowed in either mode, so an unfaulted engine has its effect. -/
theorem mabortDropsMac : Obligations.MabortDropsMac :=
  ⟨rfl, fun s he => completes_mabort he s.inputs s.responses⟩

end Sys2Proof.Machine
end

section
/-!
PROOFS. Doubling on the 128-bit number of a block (42_cmac.md rules R120 and R121), bit by bit: bit `j` of the
number is bit `j mod 8` of byte `15 - j / 8`.
-/

namespace Sys2Proof.Machine

/-- The bits of a number read from bytes, the last byte least significant. -/
theorem testBit_foldl_bytes (bs : List Byte) (j : Nat) :
    (bs.foldl (fun n (b : Byte) => 256 * n + b.toNat) 0).testBit j =
      (bs.reverse.getD (j / 8) 0x00).getLsbD (j % 8) := by
  induction bs using List.reverseRecOn generalizing j with
  | nil => simp
  | append_singleton bs b ih =>
    have hb : b.toNat < 2 ^ 8 := b.isLt
    rw [List.foldl_concat, Nat.testBit_two_pow_mul_add _ hb, List.reverse_concat, ih]
    split
    case isTrue hj => simp [Nat.div_eq_of_lt hj, Nat.mod_eq_of_lt hj, BitVec.testBit_toNat]
    case isFalse hj =>
      obtain ⟨i, rfl⟩ := Nat.exists_eq_add_of_le' (Nat.not_lt.1 hj)
      simp

theorem testBit_blockToNat (v : Block) {j : Nat} (hj : j < 128) :
    (blockToNat v).testBit j = v[15 - j / 8].getLsbD (j % 8) := by
  have hlen : j / 8 < v.toList.reverse.length := by simp; omega
  rw [blockToNat, testBit_foldl_bytes, List.getD_eq_getElem _ _ hlen]
  simp

theorem testBit_blockToNat_above (v : Block) {j : Nat} (hj : 128 ≤ j) :
    (blockToNat v).testBit j = false := by
  have hlen : v.toList.reverse.length ≤ j / 8 := by simp; omega
  rw [blockToNat, testBit_foldl_bytes, List.getD_eq_default _ _ hlen]
  exact BitVec.getLsbD_zero

theorem blockToNat_lt (v : Block) : blockToNat v < 2 ^ 128 :=
  Nat.lt_pow_two_of_testBit _ fun _ hj => testBit_blockToNat_above v hj

theorem blockMsb_eq_testBit (v : Block) : blockMsb v = (blockToNat v).testBit 127 := by
  rw [testBit_blockToNat v (by decide), blockMsb, BitVec.msb_eq_getLsbD_last]

theorem blockMsb_iff (v : Block) : blockMsb v = true ↔ 2 ^ 127 ≤ blockToNat v := by
  rw [blockMsb_eq_testBit]
  exact ⟨Nat.ge_two_pow_of_testBit, fun h =>
    Nat.testBit_of_two_pow_le_and_two_pow_add_one_gt h (blockToNat_lt v)⟩

theorem blockShl1_getElem (v : Block) {i : Nat} (hi : i < 16) :
    (blockShl1 v)[i] = (v[i] <<< 1) ||| (if h : i < 15 then v[i + 1] >>> 7 else 0x00) :=
  Vector.getElem_ofFn hi

/-- A bit of `v << 1` above bit 0 comes from the bit below it in the same byte. -/
theorem blockShl1_bit_succ (v : Block) {i b : Nat} (hi : i < 16) (hb : b + 1 < 8) :
    (blockShl1 v)[i].getLsbD (b + 1) = v[i].getLsbD b := by
  have hcarry (x : Byte) : x.getLsbD (7 + (b + 1)) = false := BitVec.getLsbD_of_ge x _ (by omega)
  rw [blockShl1_getElem, BitVec.getLsbD_or, BitVec.getLsbD_shiftLeft]
  split <;> simp [hcarry, hb]

/-- Bit 0 of a byte of `v << 1` is the top bit of the byte after it. -/
theorem blockShl1_bit_zero (v : Block) {i : Nat} (hi : i < 15) :
    (blockShl1 v)[i].getLsbD 0 = v[i + 1].getLsbD 7 := by
  rw [blockShl1_getElem v (by omega), dif_pos hi]
  simp

theorem testBit_blockToNat_shl1_succ (v : Block) {j : Nat} (hj : j + 1 < 128) :
    (blockToNat (blockShl1 v)).testBit (j + 1) = (blockToNat v).testBit j := by
  rw [testBit_blockToNat _ hj, testBit_blockToNat _ (by omega : j < 128)]
  obtain hb | hb : j % 8 = 7 ∨ j % 8 + 1 < 8 := by omega
  · have hbyte : (j + 1) / 8 = j / 8 + 1 := by omega
    have hbit : (j + 1) % 8 = 0 := by omega
    have hnext : 15 - (j / 8 + 1) + 1 = 15 - j / 8 := by omega
    simp only [hbyte, hbit, hb, hnext, blockShl1_bit_zero v (by omega : 15 - (j / 8 + 1) < 15)]
  · have hbyte : (j + 1) / 8 = j / 8 := by omega
    have hbit : (j + 1) % 8 = j % 8 + 1 := by omega
    simp only [hbyte, hbit, blockShl1_bit_succ v (by omega : 15 - j / 8 < 16) hb]

theorem testBit_blockToNat_shl1_zero (v : Block) : (blockToNat (blockShl1 v)).testBit 0 = false := by
  rw [testBit_blockToNat _ (by decide), blockShl1_getElem]
  simp

theorem blockToNat_shl1 (v : Block) : blockToNat (blockShl1 v) = 2 * blockToNat v % 2 ^ 128 := by
  apply Nat.eq_of_testBit_eq
  rintro (_ | j)
  · rw [testBit_blockToNat_shl1_zero, Nat.testBit_mod_two_pow]
    simp
  · rw [Nat.testBit_mod_two_pow, Nat.testBit_succ (2 * _), Nat.mul_div_cancel_left _ Nat.two_pos]
    obtain hj | hj := Nat.lt_or_ge (j + 1) 128
    · simp [testBit_blockToNat_shl1_succ v hj, hj]
    · simp [testBit_blockToNat_above _ hj, hj]

theorem blockToNat_xor (a b : Block) : blockToNat (blockXor a b) = blockToNat a ^^^ blockToNat b := by
  apply Nat.eq_of_testBit_eq
  intro j
  rw [Nat.testBit_xor]
  obtain hj | hj := Nat.lt_or_ge j 128
  · simp [testBit_blockToNat _ hj]
  · simp [testBit_blockToNat_above _ hj]

theorem blockToNat_doublingConstant : blockToNat doublingConstant = 0x87 := by decide

/-- Settles O46: the shift and the `xor` of blocks are those of their numbers. -/
theorem doublingIsOnNumbers : Obligations.DoublingIsOnNumbers := by
  refine fun v => ⟨blockToNat_lt v, blockMsb_iff v, blockToNat_shl1 v, ?_⟩
  simp only [dbl, blockMsb_iff, apply_ite blockToNat, blockToNat_xor, blockToNat_shl1,
    blockToNat_doublingConstant]

end Sys2Proof.Machine
end

section
/-!
PROOFS. Command lists that complete, and the bytes they push into a register from its first byte on
(20_memory.md rule R44; 40_control_and_buffer_commands.md rules R74 and R81).
-/

namespace Sys2Proof.Machine

/-- The commands complete one after another, from the engine `e` to the engine `f`. -/
inductive Runs : List Instr → Engine → Engine → Prop where
  | nil (e : Engine) : Runs [] e e
  | cons {i : Instr} {later : List Instr} {e f : Engine} (h : Completes i e)
    (hr : Runs later (effectOf i e) f) : Runs (i :: later) e f

namespace Runs

variable {is js : List Instr} {i : Instr} {e f g : Engine}

theorem append (h : Runs is e f) (hr : Runs js f g) : Runs (is ++ js) e g := by
  induction h with
  | nil => exact hr
  | cons hi _ ih => exact .cons hi (ih hr)

theorem concat (h : Runs is e f) (hi : Completes i f) : Runs (is ++ [i]) e (effectOf i f) :=
  h.append (.cons hi (.nil _))

/-- Issued at the port, the words of such a list answer `0x0000` each. -/
theorem issueAll (h : Runs is e f) (cycles : List PortCycle) (given : List ResponseWord) :
    issueAll (is.map encode) ⟨e, cycles, given⟩ =
      .next ⟨f, cycles, given ++ List.replicate is.length 0x0000⟩ := by
  induction h generalizing given with
  | nil => simp
  | cons hi _ ih =>
    rw [List.map_cons, issueAll_cons ((command_decoded (decode_encode _) _).trans (hi cycles given)), ih]
    simp [List.replicate_succ]

end Runs

/-- The counter of a register that got the bytes `bs` from its first byte on (rule R81). -/
def pushCount (bs : List Byte) : Fin 18 := ⟨min bs.length 17, by omega⟩

@[simp] theorem blockOfBytes_getElem (bs : List Byte) {i : Nat} (hi : i < 16) :
    (blockOfBytes bs)[i] = bs.getD i 0x00 :=
  Vector.getElem_ofFn hi

theorem blockOfBytes_nil : blockOfBytes [] = Block.zero := by
  ext i hi
  simp

theorem blockOfBytes_concat (bs : List Byte) (d : Byte) :
    blockOfBytes (bs ++ [d]) = putByte (blockOfBytes bs) bs.length d := by
  ext i hi
  rw [putByte_getElem hi, blockOfBytes_getElem _ hi, blockOfBytes_getElem _ hi]
  obtain hlt | rfl | hgt := Nat.lt_trichotomy i bs.length
  · rw [List.getD_append _ _ _ _ hlt, if_neg hlt.ne']
  · simp
  · rw [List.getD_eq_default _ _ (by simpa using hgt), if_neg hgt.ne, List.getD_eq_default _ _ hgt.le]

theorem pushCount_below {bs : List Byte} (h : bs.length ≤ 17) : (pushCount bs).val = bs.length :=
  Nat.min_eq_left h

theorem countUp_val_eq_min (c : Fin 18) : (countUp c).val = min (c.val + 1) 17 := by
  revert c; decide

theorem countUp_above {c : Fin 18} (h : 16 ≤ c.val) : countUp c = 17 := dif_neg h.not_gt

theorem countUp_pushCount (bs : List Byte) (d : Byte) : countUp (pushCount bs) = pushCount (bs ++ [d]) := by
  apply Fin.ext
  simp only [countUp_val_eq_min, pushCount, List.length_append, List.length_singleton]
  omega

/-- A push beyond the register's end writes no byte, and `blockOfBytes` drops such a byte too. -/
theorem pushByte_blockOfBytes (bs : List Byte) (d : Byte) :
    pushByte (blockOfBytes bs) (pushCount bs) d = (blockOfBytes (bs ++ [d]), pushCount (bs ++ [d])) := by
  rw [blockOfBytes_concat, ← countUp_pushCount]
  obtain h | h := Nat.lt_or_ge bs.length 16
  · have hcount := pushCount_below (h.le.trans (by decide))
    rw [pushByte_below (hcount.trans_lt h), hcount]
  · have hcount : 16 ≤ (pushCount bs).val := le_min h (by decide)
    rw [pushByte_above hcount, countUp_above hcount, putByte, dif_neg h.not_gt]

theorem completes_clrk {e : Engine} (he : e.err = 0x00) (hm : e.mact = false) : Completes .clrk e :=
  fun _ _ => exec_idleOnly_idle rfl nofun he hm

theorem completes_kpush {e : Engine} (he : e.err = 0x00) (hm : e.mact = false) (d : Byte) :
    Completes (.kpush d) e :=
  fun _ _ => exec_idleOnly_idle rfl nofun he hm

/-- The engine with the bytes `k` pushed into an empty `KEY` (rule R74). -/
def Engine.withKey (e : Engine) (k : List Byte) : Engine :=
  { e with key := blockOfBytes k, kcnt := pushCount k }

@[simp] theorem Engine.withKey_key (e : Engine) (k : List Byte) :
    (e.withKey k).key = blockOfBytes k := by rw [withKey]
@[simp] theorem Engine.withKey_kcnt (e : Engine) (k : List Byte) :
    (e.withKey k).kcnt = pushCount k := by rw [withKey]
@[simp] theorem Engine.withKey_mact (e : Engine) (k : List Byte) :
    (e.withKey k).mact = e.mact := by rw [withKey]
@[simp] theorem Engine.withKey_err (e : Engine) (k : List Byte) :
    (e.withKey k).err = e.err := by rw [withKey]

theorem withKey_nil (e : Engine) : e.withKey [] = e.clearKey := by
  rw [Engine.withKey, blockOfBytes_nil]; rfl

theorem pushKey_withKey (e : Engine) (k : List Byte) (d : Byte) :
    (e.withKey k).pushKey d = e.withKey (k ++ [d]) := by
  simp only [Engine.pushKey, Engine.withKey, pushByte_blockOfBytes]

/-- LOADKEY with a key of any length; from 17 bytes on `KCNT` is 17 (rules R74 and R75). -/
theorem runs_loadKey {e : Engine} (he : e.err = 0x00) (hm : e.mact = false) (k : List Byte) :
    Runs (loadKeyCommands k) e (e.withKey k) := by
  induction k using List.reverseRecOn with
  | nil => rw [withKey_nil]; exact .cons (completes_clrk he hm) (.nil _)
  | append_singleton k d ih =>
    rw [loadKeyCommands, List.map_append, ← pushKey_withKey]
    exact ih.concat (completes_kpush (by simp [he]) (by simp [hm]) d)

end Sys2Proof.Machine
end

section
/-!
PROOFS. The command list of a CMAC (42_cmac.md rule R124): the chain value holds every full block that more bytes
came after, the buffer the rest of the message.
-/

namespace Sys2Proof.Machine

/-- `q - 1` of rule R124: the blocks of `m` chained into `X` once all its bytes are pushed. -/
def chainedBlocks (m : List Byte) : Nat := (m.length + 15) / 16 - 1

/-- The bytes of `m` after those blocks: what `IBUF` holds. -/
def pendingBytes (m : List Byte) : List Byte := m.drop (16 * chainedBlocks m)

/-- An engine with the chain value `x` and the bytes `p` in its buffer. -/
def Engine.buffering (e : Engine) (x : Block) (p : List Byte) : Engine :=
  { e with x := x, ibuf := blockOfBytes p, icnt := pushCount p }

/-- The engine after MINIT on `e` and the pushes of `m` (rule R124). -/
def macAfter (e : Engine) (m : List Byte) : Engine :=
  e.openMac.buffering (chainValue e.key m (chainedBlocks m)) (pendingBytes m)

@[simp] theorem macAfter_key (e : Engine) (m : List Byte) :
    (macAfter e m).key = e.key := by simp [macAfter, Engine.buffering]
@[simp] theorem macAfter_x (e : Engine) (m : List Byte) :
    (macAfter e m).x = chainValue e.key m (chainedBlocks m) := by simp [macAfter, Engine.buffering]
@[simp] theorem macAfter_ibuf (e : Engine) (m : List Byte) :
    (macAfter e m).ibuf = blockOfBytes (pendingBytes m) := by simp [macAfter, Engine.buffering]
@[simp] theorem macAfter_k1 (e : Engine) (m : List Byte) :
    (macAfter e m).k1 = subkey1 e.key := by simp [macAfter, Engine.buffering]
@[simp] theorem macAfter_k2 (e : Engine) (m : List Byte) :
    (macAfter e m).k2 = subkey2 e.key := by simp [macAfter, Engine.buffering]
@[simp] theorem macAfter_mact (e : Engine) (m : List Byte) :
    (macAfter e m).mact = true := by simp [macAfter, Engine.buffering]
@[simp] theorem macAfter_err (e : Engine) (m : List Byte) :
    (macAfter e m).err = e.err := by simp [macAfter, Engine.buffering]

theorem storeMessage_buffering (e : Engine) (x : Block) {p : List Byte} (hp : p.length < 16) (d : Byte) :
    (e.buffering x p).storeMessage d = e.buffering x (p ++ [d]) := by
  have hcount := pushCount_below (hp.le.trans (by decide))
  simp only [Engine.storeMessage, Engine.buffering, hcount, blockOfBytes_concat, countUp_pushCount _ d]

theorem absorb_buffering (e : Engine) (x : Block) (p : List Byte) :
    (e.buffering x p).absorb = e.buffering (aes128 e.key (blockXor x (blockOfBytes p))) [] := by
  simp only [Engine.buffering, blockOfBytes_nil]
  rfl

/-! ## The blocks chained and the bytes pending, one byte later -/

theorem length_pendingBytes (m : List Byte) :
    (pendingBytes m).length = m.length - 16 * chainedBlocks m := List.length_drop

theorem length_pendingBytes_le (m : List Byte) : (pendingBytes m).length ≤ 16 := by
  rw [length_pendingBytes, chainedBlocks]; omega

theorem chainedBlocks_concat_full {m : List Byte} (h : (pendingBytes m).length = 16) (d : Byte) :
    chainedBlocks (m ++ [d]) = chainedBlocks m + 1 := by
  rw [length_pendingBytes] at h
  simp only [chainedBlocks, List.length_append, List.length_singleton] at h ⊢
  omega

theorem chainedBlocks_concat_notFull {m : List Byte} (h : (pendingBytes m).length < 16) (d : Byte) :
    chainedBlocks (m ++ [d]) = chainedBlocks m := by
  rw [length_pendingBytes] at h
  simp only [chainedBlocks, List.length_append, List.length_singleton] at h ⊢
  omega

theorem chainedBlocks_le (m : List Byte) : 16 * chainedBlocks m ≤ m.length := by
  rw [chainedBlocks]; omega

theorem pendingBytes_concat_full {m : List Byte} (h : (pendingBytes m).length = 16) (d : Byte) :
    pendingBytes (m ++ [d]) = [d] := by
  have hlen : 16 * (chainedBlocks m + 1) = m.length := by
    rw [length_pendingBytes] at h; omega
  rw [pendingBytes, chainedBlocks_concat_full h, hlen, List.drop_left]

theorem pendingBytes_concat_notFull {m : List Byte} (h : (pendingBytes m).length < 16) (d : Byte) :
    pendingBytes (m ++ [d]) = pendingBytes m ++ [d] := by
  rw [pendingBytes, chainedBlocks_concat_notFull h, List.drop_append_of_le_length (chainedBlocks_le m)]
  rfl

/-- The chain value of the first `n` blocks does not depend on the bytes after them. -/
theorem chainValue_append (k : Block) (m r : List Byte) {n : Nat} (hn : 16 * n ≤ m.length) :
    chainValue k (m ++ r) n = chainValue k m n := by
  induction n with
  | zero => rfl
  | succ n ih =>
    have hblock : messageBlock (m ++ r) (n + 1) = messageBlock m (n + 1) := by
      rw [messageBlock, messageBlock, Nat.add_sub_cancel, List.drop_append_of_le_length (by omega),
        List.take_append_of_le_length (by rw [List.length_drop]; omega)]
    rw [chainValue, chainValue, ih (by omega), hblock]

theorem chainValue_concat_full (k : Block) {m : List Byte} (h : (pendingBytes m).length = 16) (d : Byte) :
    chainValue k (m ++ [d]) (chainedBlocks m + 1) =
      aes128 k (blockXor (chainValue k m (chainedBlocks m)) (blockOfBytes (pendingBytes m))) := by
  have hlast : messageBlock m (chainedBlocks m + 1) = blockOfBytes (pendingBytes m) := by
    rw [messageBlock, Nat.add_sub_cancel, ← pendingBytes, List.take_of_length_le h.le]
  have hlen : 16 * (chainedBlocks m + 1) ≤ m.length := by
    rw [length_pendingBytes] at h; omega
  rw [chainValue_append k m [d] hlen, chainValue, hlast]

/-! ## The commands -/

theorem macAfter_nil (e : Engine) : macAfter e [] = e.openMac := by
  simp only [macAfter, Engine.buffering, pendingBytes, List.drop_nil, blockOfBytes_nil]
  rfl

theorem macAfter_icnt (e : Engine) (m : List Byte) : (macAfter e m).icnt.val = (pendingBytes m).length :=
  pushCount_below ((length_pendingBytes_le m).trans (by decide))

theorem macAfter_icnt_le (e : Engine) (m : List Byte) : (macAfter e m).icnt.val ≤ 16 :=
  (macAfter_icnt e m).trans_le (length_pendingBytes_le m)

/-- MPUSH takes the engine of `m` to that of `m` and one byte more (rule R126). -/
theorem effectOf_mpush_macAfter (e : Engine) (m : List Byte) (d : Byte) :
    effectOf (.mpush d) (macAfter e m) = macAfter e (m ++ [d]) := by
  have hcount := macAfter_icnt e m
  obtain h | h := (length_pendingBytes_le m).eq_or_lt
  · rw [effectOf, absorbIfFull_full (hcount.trans h), macAfter, absorb_buffering,
      storeMessage_buffering _ _ (by decide), macAfter, pendingBytes_concat_full h,
      chainedBlocks_concat_full h, chainValue_concat_full _ h]
    rfl
  · rw [effectOf, absorbIfFull_notFull (hcount.trans_lt h), macAfter, storeMessage_buffering _ _ h,
      macAfter, pendingBytes_concat_notFull h, chainedBlocks_concat_notFull h,
      chainValue_append _ _ _ (chainedBlocks_le m)]

theorem runs_message {e : Engine} (he : e.err = 0x00) (m : List Byte) :
    Runs (m.map Instr.mpush) e.openMac (macAfter e m) := by
  induction m using List.reverseRecOn with
  | nil => rw [macAfter_nil]; exact .nil _
  | append_singleton m d ih =>
    rw [List.map_append, ← effectOf_mpush_macAfter]
    exact ih.concat (completes_mpush (by simp [he]) (by simp) (macAfter_icnt_le e m) d)

theorem cmacBlocks_sub_one (m : List Byte) : cmacBlocks m - 1 = chainedBlocks m := by
  unfold cmacBlocks chainedBlocks
  split
  · omega
  · rfl

theorem length_pendingBytes_eq_16_iff (m : List Byte) :
    (pendingBytes m).length = 16 ↔ m.length ≠ 0 ∧ m.length % 16 = 0 := by
  rw [length_pendingBytes, chainedBlocks]; omega

/-- The last block is complete where the buffer is full (rules R123 and R127). -/
theorem finalBlock_macAfter (e : Engine) (m : List Byte) :
    (macAfter e m).finalBlock = lastBlock e.key m := by
  simp only [lastBlock, cmacBlocks_sub_one, ← length_pendingBytes_eq_16_iff]
  rw [← pendingBytes, blockOfBytes_concat, Engine.finalBlock, macAfter_icnt]
  simp

theorem closeMac_macAfter_dout (e : Engine) (m : List Byte) :
    (macAfter e m).closeMac.dout = cmac e.key m := by
  simp [finalBlock_macAfter, cmac, cmacBlocks_sub_one]

theorem runs_openMac {e : Engine} (he : e.err = 0x00) (hm : e.mact = false) {k : List Byte}
    (hk : k.length = 16) (m : List Byte) :
    Runs (loadKeyCommands k ++ Instr.minit :: m.map Instr.mpush) e (macAfter (e.withKey k) m) := by
  have he' : (e.withKey k).err = 0x00 := (e.withKey_err k).trans he
  have hm' : (e.withKey k).mact = false := (e.withKey_mact k).trans hm
  have hcount : (e.withKey k).kcnt.val = 16 := by
    rw [Engine.withKey_kcnt, pushCount_below (by omega), hk]
  exact (runs_loadKey he hm k).append (.cons (completes_minit he' hm' hcount) (runs_message he' m))

theorem runs_cmacStream {e : Engine} (he : e.err = 0x00) (hm : e.mact = false) {k : List Byte}
    (hk : k.length = 16) (m : List Byte) :
    Runs (cmacStream k m) e (macAfter (e.withKey k) m).closeMac :=
  (runs_openMac he hm hk m).concat (completes_mfinal (by simp [he]) (by simp) (macAfter_icnt_le _ m))

theorem length_cmacStream {k : List Byte} (hk : k.length = 16) (m : List Byte) :
    (cmacStream k m).length = m.length + 19 := by
  simp [cmacStream, loadKeyCommands, hk]; omega

/-- Settles O47: the engine before MFINAL is `macAfter`, and MFINAL writes the tag of its chain value and last
block. -/
theorem streamComputesCmac : Obligations.StreamComputesCmac := by
  intro k m s hk he hm
  have hopen := (runs_openMac he hm hk m).issueAll s.inputs s.responses
  have htag := (runs_cmacStream he hm hk m).issueAll s.inputs s.responses
  rw [length_cmacStream hk] at htag
  refine ⟨⟨_, hopen, by simp [he], by simp, by simp, ?_, by simp [chainedBlocks], ?_⟩,
    ⟨_, htag, by simp [he], by simp, by simp, ?_, rfl⟩⟩
  · exact (macAfter_icnt _ m).trans (length_pendingBytes m)
  · exact macAfter_ibuf _ m
  · exact (closeMac_macAfter_dout _ m).trans (by simp)

end Sys2Proof.Machine
end

section
/-!
PROOFS. The host's byte utilities (45_host_sequences.md rules R141 and R142).
-/

namespace Sys2Proof.Machine

theorem hexDigit_lt {c : Char} {n : Nat} (h : hexDigit c = some n) : n < 16 := by
  unfold hexDigit at h
  split_ifs at h <;> cases h <;> omega

theorem hexPairs_cons_cons_eq_some {hi lo : Char} {rest : List Char} {bs : List Byte} :
    hexPairs (hi :: lo :: rest) = some bs ↔
      ∃ h l ds, hexDigit hi = some h ∧ hexDigit lo = some l ∧ hexPairs rest = some ds ∧
        BitVec.ofNat 8 (16 * h + l) :: ds = bs := by
  rw [hexPairs]
  cases hexDigit hi <;> cases hexDigit lo <;> cases hexPairs rest <;> simp

theorem hexPairs_isSome_iff : ∀ cs : List Char,
    (hexPairs cs).isSome = true ↔ cs.length % 2 = 0 ∧ ∀ c ∈ cs, (hexDigit c).isSome = true
  | [] => by simp [hexPairs]
  | [c] => by simp [hexPairs]
  | hi :: lo :: rest => by
    have heven : (rest.length + 1 + 1) % 2 = rest.length % 2 := Nat.add_mod_right rest.length 2
    have hpair : (hexPairs (hi :: lo :: rest)).isSome = true ↔
        (hexDigit hi).isSome = true ∧ (hexDigit lo).isSome = true ∧ (hexPairs rest).isSome = true := by
      simp [Option.isSome_iff_exists, hexPairs_cons_cons_eq_some]
    rw [hpair, hexPairs_isSome_iff rest]
    simp only [List.length_cons, heven, List.forall_mem_cons]
    tauto

theorem hexPairs_bytes : ∀ {cs : List Char} {bs : List Byte}, hexPairs cs = some bs →
    cs.length = 2 * bs.length ∧ ∀ i < bs.length, ∃ hi lo, hexDigit (cs.getD (2 * i) '0') = some hi ∧
      hexDigit (cs.getD (2 * i + 1) '0') = some lo ∧ hi < 16 ∧ lo < 16 ∧
      (bs.getD i 0x00).toNat = 16 * hi + lo
  | [], bs, h => by cases h; simp
  | [_], bs, h => by cases h
  | hi :: lo :: rest, bs, h => by
    obtain ⟨m, n, ds, hm, hn, hds, rfl⟩ := hexPairs_cons_cons_eq_some.1 h
    obtain ⟨hlen, hbytes⟩ := hexPairs_bytes hds
    refine ⟨by simp [hlen, Nat.mul_succ], fun i hi => ?_⟩
    cases i with
    | zero =>
      have hm16 := hexDigit_lt hm
      have hn16 := hexDigit_lt hn
      exact ⟨m, n, hm, hn, hm16, hn16, Nat.mod_eq_of_lt (by omega)⟩
    | succ i => exact hbytes i (Nat.lt_of_succ_lt_succ hi)

/-- Settles O48: `hexToBytes` is `hexPairs` on the characters, taken pair by pair. -/
theorem hexPairsAreBytes : Obligations.HexPairsAreBytes :=
  ⟨fun s => hexPairs_isSome_iff s.toList, fun _ _ => hexPairs_bytes⟩

@[simp] theorem length_intToLE (v n : Nat) : (intToLE v n).length = n := by simp [intToLE]

theorem intToLE_succ (v n : Nat) : intToLE v (n + 1) = BitVec.ofNat 8 v :: intToLE (v / 256) n := by
  simp only [intToLE, List.range_succ_eq_map, List.map_cons, List.map_map, List.cons.injEq]
  refine ⟨rfl, List.map_congr_left fun i _ => ?_⟩
  rw [Function.comp, Nat.mul_succ, Nat.add_comm, Nat.shiftRight_add, Nat.shiftRight_eq_div_pow v 8]

theorem intToLE_getD {v n i : Nat} (hi : i < n) :
    (intToLE v n).getD i 0x00 = BitVec.ofNat 8 (v >>> (8 * i)) := by
  simp [intToLE, hi]

/-- The bytes read least significant first are the number's low `8n` bits (rule R142). -/
theorem foldr_intToLE (v n : Nat) :
    (intToLE v n).foldr (fun b rest => b.toNat + 256 * rest) 0 = v % 2 ^ (8 * n) := by
  induction n generalizing v with
  | zero => simp [intToLE, Nat.mod_one]
  | succ n ih =>
    have hpow : 2 ^ (8 * (n + 1)) = 256 * 2 ^ (8 * n) := by ring
    rw [intToLE_succ, List.foldr_cons, ih, BitVec.toNat_ofNat, hpow, Nat.mod_mul]

/-- Settles O49. -/
theorem integerBytesLeastFirst : Obligations.IntegerBytesLeastFirst := by
  refine fun v n => ⟨length_intToLE v n, fun i hi => ?_, fun hv => ?_⟩
  · rw [intToLE_getD hi, BitVec.toNat_ofNat]
    exact (Nat.and_two_pow_sub_one_eq_mod _ 8).symm
  · rw [foldr_intToLE, Nat.mod_eq_of_lt hv]

theorem intToLE_inj {v w n : Nat} (hv : v < 2 ^ (8 * n)) (hw : w < 2 ^ (8 * n)) :
    intToLE v n = intToLE w n ↔ v = w := by
  refine ⟨fun h => ?_, congrArg (intToLE · n)⟩
  rw [← Nat.mod_eq_of_lt hv, ← Nat.mod_eq_of_lt hw, ← foldr_intToLE, h, foldr_intToLE]

end Sys2Proof.Machine
end

section
/-!
PROOFS. The host driver (45_host_sequences.md rules R143 and R146): what it does after a fault, a sequence in
two parts, and LOADKEY.
-/

namespace Sys2Proof.Machine

/-! ## After a fault -/

@[simp] theorem lastResponse_answer (s : State) (e : Engine) (r : Byte) :
    lastResponse (s.answer e r) = responseWord e.faulted r := by
  simp [lastResponse]

theorem command_encode (i : Instr) (s : State) : command (encode i) s = exec i s :=
  command_decoded (decode_encode i) s

/-- The host reads the code the engine keeps, and SRST leaves the reset engine. -/
theorem hostRecover_eq (s : State) :
    hostRecover s =
      .next ⟨(s.answer s.toEngine s.err).softReset, .error (.engineError s.err)⟩ := by
  have herr : command (encode .rderr) s = .next (s.answer s.toEngine s.err) := command_encode _ _
  have hreset (t : State) : command (encode .srst) t = .next t.softReset := command_encode _ _
  simp [hostRecover, herr, hreset, hostFail]

theorem responseFault_of_command {w : CommandWord} {s t : State} (h : command w s = .next t) :
    responseFault (lastResponse t) = t.faulted := by
  obtain ⟨e, rfl⟩ := command_reads h
  simp

/-- Settles O50: bit 8 of the response shows the fault, so the host recovers at once. -/
theorem hostDiscardsAfterFault : Obligations.HostDiscardsAfterFault := by
  intro i later kept s t h ht
  have hfault := (responseFault_of_command h).trans ((Engine.faulted_iff _).2 ht)
  have hrecover : hostSequence (i :: later) kept s = hostRecover t := by
    simp [hostSequence, h, hfault]
  rw [hrecover, hostRecover_eq, answer_faulted ht]
  simp [State.softReset, State.answer, responseWord_eq_add]

/-! ## A sequence in two parts -/

theorem hostSequence_append (is js : List Instr) (kept : List Byte) (s : State) :
    hostSequence (is ++ js) kept s =
      hostThen (hostSequence is kept s) fun t bs => hostSequence js bs t := by
  induction is generalizing kept s with
  | nil => rfl
  | cons i is ih =>
    rw [List.cons_append, hostSequence, hostSequence]
    cases command (encode i) s with
    | fault | refused => rfl
    | next t =>
      dsimp only
      split
      · rw [hostRecover_eq]; rfl
      · exact ih _ t

theorem issueAll_append {ws vs : List CommandWord} {s t : State} (h : issueAll ws s = .next t) :
    issueAll (ws ++ vs) s = issueAll vs t := by
  induction ws generalizing s with
  | nil => cases h; rfl
  | cons w ws ih =>
    rw [issueAll] at h
    cases hw : command w s with
    | fault | refused => rw [hw] at h; cases h
    | next u => rw [hw] at h; exact (issueAll_cons hw).trans (ih h)

/-- A sequence the host brings to its end has issued its commands and nothing else. -/
theorem issueAll_of_hostSequence {is : List Instr} {kept bs : List Byte} {s t : State}
    (h : hostSequence is kept s = .next ⟨t, .ok bs⟩) : issueAll (is.map encode) s = .next t := by
  induction is generalizing kept s with
  | nil => cases h; rfl
  | cons i is ih =>
    rw [hostSequence] at h
    cases hw : command (encode i) s with
    | fault | refused => rw [hw] at h; cases h
    | next u =>
      rw [hw] at h
      dsimp only at h
      split at h
      · rw [hostRecover_eq] at h; cases h
      · exact (issueAll_cons hw).trans (ih h)

/-! ## LOADKEY -/

/-- The host brings a list that completes to its end; the bytes it keeps do not grow where the list has no
read. -/
theorem Runs.hostSequence {is : List Instr} {e f : Engine} (h : Runs is e f)
    (hreads : ∀ i ∈ is, ∀ s, keptBytes i s = []) (kept : List Byte) (cycles : List PortCycle)
    (given : List ResponseWord) :
    hostSequence is kept ⟨e, cycles, given⟩ =
      .next ⟨⟨f, cycles, given ++ List.replicate is.length 0x0000⟩, .ok kept⟩ := by
  induction h generalizing given with
  | nil => simp
  | cons hi _ ih =>
    rw [List.forall_mem_cons] at hreads
    obtain ⟨hfirst, hlater⟩ := hreads
    rw [hostSequence_cons ((command_encode _ _).trans (hi cycles given)) (by simp [lastResponse]; rfl),
      hfirst, List.append_nil, ih hlater]
    simp [List.replicate_succ]

theorem length_loadKeyCommands {k : List Byte} (hk : k.length = 16) :
    (loadKeyCommands k).length = 17 := by
  simp [loadKeyCommands, hk]

theorem keptBytes_loadKey (k : List Byte) : ∀ i ∈ loadKeyCommands k, ∀ s, keptBytes i s = [] := by
  simp [loadKeyCommands, keptBytes]

theorem pushCount_val_eq_16_iff (bs : List Byte) : (pushCount bs).val = 16 ↔ bs.length = 16 := by
  simp only [pushCount]; omega

theorem exec_keyed_short {s : State} (he : s.err = 0x00) (hm : s.mact = false) (hk : s.kcnt.val ≠ 16) :
    exec .enc s = .next (s.raise .invalidKeyLength) ∧
      exec .minit s = .next (s.raise .invalidKeyLength) :=
  have hmode : ModeRule.idleOnly.allows s.mact = true := by rw [hm]; rfl
  ⟨(inModes_allowed he hmode).trans (requireKey_short hk),
    (inModes_allowed he hmode).trans (requireKey_short hk)⟩

/-- Settles O51: the host tests the length itself; pushed anyway, the key leaves `KCNT` other than 16. -/
theorem loadKeyMacro : Obligations.LoadKeyMacro := by
  refine fun k s => ⟨requireKeyBytes_wrong _ s, fun he hm => ⟨fun hk => ?_, fun hk => ?_⟩⟩
  · have hcount : pushCount k = 16 := Fin.ext ((pushCount_val_eq_16_iff k).2 hk)
    have hrun := (runs_loadKey he hm k).hostSequence (keptBytes_loadKey k) [] s.inputs s.responses
    rw [length_loadKeyCommands hk, Engine.withKey, hcount] at hrun
    exact ⟨length_loadKeyCommands hk, (requireKeyBytes_right _ s hk).trans hrun⟩
  · have hcount : (s.toEngine.withKey k).kcnt.val ≠ 16 := by
      rwa [Engine.withKey_kcnt, Ne, pushCount_val_eq_16_iff]
    exact ⟨_, (runs_loadKey he hm k).issueAll s.inputs s.responses,
      exec_keyed_short (by simp [he]) (by simp [hm]) hcount⟩

end Sys2Proof.Machine
end

section
/-!
PROOFS. The blocks pushed into `IBUF`, the bytes read from `DOUT`, and the macros ENCRYPT_BLOCK and CMAC
(45_host_sequences.md rules R144 and R145).
-/

namespace Sys2Proof.Machine

/-- The driver runs the commands from the engine `e` to the engine `f` without a fault and keeps the bytes
`bs`. -/
def HostReads (is : List Instr) (e f : Engine) (bs : List Byte) : Prop :=
  ∀ (s : State) (kept : List Byte), s.toEngine = e →
    ∃ t, t.toEngine = f ∧ hostSequence is kept s = .next ⟨t, .ok (kept ++ bs)⟩

theorem HostReads.nil (e : Engine) : HostReads [] e e [] :=
  fun s _ hs => ⟨s, hs, by simp⟩

theorem HostReads.append {is js : List Instr} {e f g : Engine} {bs ds : List Byte}
    (h : HostReads is e f bs) (h' : HostReads js f g ds) : HostReads (is ++ js) e g (bs ++ ds) := by
  intro s kept hs
  obtain ⟨t, ht, hfirst⟩ := h s kept hs
  obtain ⟨u, hu, hsecond⟩ := h' t (kept ++ bs) ht
  refine ⟨u, hu, ?_⟩
  rw [hostSequence_append, hfirst, hostThen_ok, hsecond, List.append_assoc]

/-- The driver starts a procedure with no bytes kept. -/
theorem HostReads.run {is : List Instr} {s : State} {f : Engine} {bs : List Byte}
    (h : HostReads is s.toEngine f bs) :
    ∃ t, t.toEngine = f ∧ hostSequence is [] s = .next ⟨t, .ok bs⟩ :=
  h s [] rfl

/-- A list that completes, without a read, before others. -/
theorem Runs.hostReads_append {is js : List Instr} {e f g : Engine} {bs : List Byte} (h : Runs is e f)
    (hreads : ∀ i ∈ is, ∀ s, keptBytes i s = []) (h' : HostReads js f g bs) :
    HostReads (is ++ js) e g bs := by
  have hfirst : HostReads is e f [] := by
    rintro ⟨_, cycles, given⟩ kept rfl
    exact ⟨_, rfl, by rw [h.hostSequence hreads, List.append_nil]⟩
  exact hfirst.append h'

/-! ## Reading the result -/

theorem hostReads_rdout {e : Engine} (he : e.err = 0x00) (ho : e.ovalid = true) (idx : BitVec 4) :
    HostReads [.rdout idx] e e [e.resultByte idx] := by
  rintro s kept rfl
  have hread : command (encode (.rdout idx)) s =
      .next (s.answer s.toEngine (s.toEngine.resultByte idx)) :=
    (command_encode _ _).trans ((inModes_allowed he rfl).trans (requireOutput_present ho))
  have hfault : s.faulted = false := (Engine.not_faulted_iff _).2 he
  refine ⟨s.answer s.toEngine (s.toEngine.resultByte idx), rfl, ?_⟩
  rw [hostSequence_cons hread (by simp [hfault])]
  simp [keptBytes]

/-- `RDOUT 0` to `RDOUT n-1` give the first `n` result bytes (rule R77). -/
theorem hostReads_readCommands {e : Engine} (he : e.err = 0x00) (ho : e.ovalid = true) {n : Nat}
    (hn : n ≤ 16) : HostReads (readCommands n) e e (e.dout.toList.take n) := by
  induction n with
  | zero => exact .nil e
  | succ n ih =>
    have hbyte : e.resultByte (BitVec.ofNat 4 n) = e.dout[n] := by
      simp [Engine.resultByte, Nat.mod_eq_of_lt (show n < 16 from hn)]
    have hcommands : readCommands (n + 1) = readCommands n ++ [.rdout (BitVec.ofNat 4 n)] := by
      simp [readCommands, List.range_succ]
    have hbytes : e.dout.toList.take (n + 1) = e.dout.toList.take n ++ [e.dout[n]] := by
      rw [List.take_succ_eq_append_getElem (by simpa using hn)]; simp
    rw [hcommands, hbytes, ← hbyte]
    exact (ih (Nat.le_of_succ_le hn)).append (hostReads_rdout he ho _)

/-! ## A block pushed and encrypted -/

theorem runs_clrd {e : Engine} (he : e.err = 0x00) (hm : e.mact = false) :
    Runs [.clrd] e e.clearInput :=
  .cons (fun _ _ => exec_idleOnly_idle rfl nofun he hm) (.nil _)

theorem completes_dpush {e : Engine} (he : e.err = 0x00) (hm : e.mact = false) (d : Byte) :
    Completes (.dpush d) e :=
  fun _ _ => exec_idleOnly_idle rfl nofun he hm

theorem completes_enc {e : Engine} (he : e.err = 0x00) (hm : e.mact = false) (hk : e.kcnt.val = 16)
    (hi : e.icnt.val = 16) : Completes .enc e :=
  completes_of_body (fun _ => rfl) nofun he (by rw [hm]; rfl) fun _ _ =>
    (requireKey_full hk).trans (requireBlock_full hi)

/-- A register that held `reg` after the bytes `bs` are pushed from its first byte on: those of `reg` stay
above them. -/
def overwrite (reg : Block) (bs : List Byte) : Block := Vector.ofFn fun i => bs.getD i.val reg[i]

@[simp] theorem overwrite_getElem (reg : Block) (bs : List Byte) {i : Nat} (hi : i < 16) :
    (overwrite reg bs)[i] = bs.getD i reg[i] :=
  Vector.getElem_ofFn hi

theorem overwrite_nil (reg : Block) : overwrite reg [] = reg := by
  ext i hi
  simp

theorem overwrite_of_full (reg : Block) {bs : List Byte} (h : bs.length = 16) :
    overwrite reg bs = blockOfBytes bs := by
  ext i hi
  simp [h, hi]

theorem getD_concat (bs : List Byte) (d x : Byte) (i : Nat) :
    (bs ++ [d]).getD i x = if bs.length = i then d else bs.getD i x := by
  obtain hlt | rfl | hgt := Nat.lt_trichotomy i bs.length
  · rw [List.getD_append _ _ _ _ hlt, if_neg hlt.ne']
  · simp
  · rw [List.getD_eq_default _ _ (by simpa using hgt), if_neg hgt.ne, List.getD_eq_default _ _ hgt.le]

theorem overwrite_concat (reg : Block) (bs : List Byte) (d : Byte) :
    overwrite reg (bs ++ [d]) = putByte (overwrite reg bs) bs.length d := by
  ext i hi
  rw [putByte_getElem hi, overwrite_getElem _ _ hi, overwrite_getElem _ _ hi, getD_concat]

/-- One more push after the bytes `bs`; beyond the register's end `putByte` writes nothing either. -/
theorem pushByte_pushCount (reg : Block) (bs : List Byte) (d : Byte) :
    pushByte reg (pushCount bs) d = (putByte reg bs.length d, pushCount (bs ++ [d])) := by
  rw [← countUp_pushCount]
  obtain h | h := Nat.lt_or_ge bs.length 16
  · have hcount := pushCount_below (h.le.trans (by decide))
    rw [pushByte_below (hcount.trans_lt h), hcount]
  · have hcount : 16 ≤ (pushCount bs).val := le_min h (by decide)
    rw [pushByte_above hcount, countUp_above hcount, putByte, dif_neg h.not_gt]

/-- The engine with the bytes `bs` pushed into its buffer from the first byte on (rule R76). -/
def Engine.withInput (e : Engine) (bs : List Byte) : Engine :=
  { e with ibuf := overwrite e.ibuf bs, icnt := pushCount bs }

@[simp] theorem Engine.withInput_key (e : Engine) (bs : List Byte) :
    (e.withInput bs).key = e.key := by rw [withInput]
@[simp] theorem Engine.withInput_kcnt (e : Engine) (bs : List Byte) :
    (e.withInput bs).kcnt = e.kcnt := by rw [withInput]
@[simp] theorem Engine.withInput_ibuf (e : Engine) (bs : List Byte) :
    (e.withInput bs).ibuf = overwrite e.ibuf bs := by rw [withInput]
@[simp] theorem Engine.withInput_icnt (e : Engine) (bs : List Byte) :
    (e.withInput bs).icnt = pushCount bs := by rw [withInput]
@[simp] theorem Engine.withInput_mact (e : Engine) (bs : List Byte) :
    (e.withInput bs).mact = e.mact := by rw [withInput]
@[simp] theorem Engine.withInput_err (e : Engine) (bs : List Byte) :
    (e.withInput bs).err = e.err := by rw [withInput]

theorem withInput_nil {e : Engine} (hi : e.icnt = 0) : e.withInput [] = e := by
  have hcount : pushCount [] = e.icnt := hi.symm
  rw [Engine.withInput, overwrite_nil, hcount]

theorem pushInput_withInput (e : Engine) (bs : List Byte) (d : Byte) :
    (e.withInput bs).pushInput d = e.withInput (bs ++ [d]) := by
  simp only [Engine.pushInput, Engine.withInput, pushByte_pushCount, overwrite_concat]

theorem runs_pushInput {e : Engine} (he : e.err = 0x00) (hm : e.mact = false) (hi : e.icnt = 0)
    (bs : List Byte) : Runs (bs.map Instr.dpush) e (e.withInput bs) := by
  induction bs using List.reverseRecOn with
  | nil => rw [withInput_nil hi]; exact .nil e
  | append_singleton bs d ih =>
    rw [List.map_append, ← pushInput_withInput]
    exact ih.concat (completes_dpush (by simp [he]) (by simp [hm]) d)

/-- An engine in IDLE mode that holds the whole key `k`: where a block may be pushed and encrypted. -/
structure Engine.KeyReady (e : Engine) (k : Block) : Prop where
  err : e.err = 0x00
  mact : e.mact = false
  kcnt : e.kcnt.val = 16
  key : e.key = k

theorem withKey_keyReady {e : Engine} (he : e.err = 0x00) (hm : e.mact = false) {k : List Byte}
    (hk : k.length = 16) : (e.withKey k).KeyReady (blockOfBytes k) where
  err := by simp [he]
  mact := by simp [hm]
  kcnt := by rwa [Engine.withKey_kcnt, pushCount_val_eq_16_iff]
  key := by simp

namespace Engine.KeyReady

variable {e : Engine} {k : Block}

theorem clearInput (h : e.KeyReady k) : e.clearInput.KeyReady k := ⟨h.err, h.mact, h.kcnt, h.key⟩

theorem withInput (h : e.KeyReady k) (bs : List Byte) : (e.withInput bs).KeyReady k where
  err := by simp [h.err]
  mact := by simp [h.mact]
  kcnt := by simp [h.kcnt]
  key := by simp [h.key]

theorem encrypt (h : e.KeyReady k) : e.encrypt.KeyReady k := ⟨h.err, h.mact, h.kcnt, h.key⟩

end Engine.KeyReady

/-- Sixteen bytes pushed into the empty buffer and encrypted, and the first `n` bytes of the result read. -/
theorem hostReads_encrypt {e : Engine} {k : Block} (h : e.KeyReady k) (hi : e.icnt = 0) {b : List Byte}
    (hb : b.length = 16) {n : Nat} (hn : n ≤ 16) :
    HostReads (b.map .dpush ++ .enc :: readCommands n) e (e.withInput b).encrypt
      ((aes128 k (blockOfBytes b)).toList.take n) := by
  have hfull := h.withInput b
  have henc : Completes .enc (e.withInput b) :=
    completes_enc hfull.err hfull.mact hfull.kcnt
      (by rwa [Engine.withInput_icnt, pushCount_val_eq_16_iff])
  have hdout : (e.withInput b).encrypt.dout = aes128 k (blockOfBytes b) := by
    simp [overwrite_of_full _ hb, h.key]
  have hread := hostReads_readCommands (e := (e.withInput b).encrypt) hfull.encrypt.err rfl hn
  rw [hdout] at hread
  rw [List.append_cons]
  exact ((runs_pushInput h.err h.mact hi b).concat henc).hostReads_append
    (by simp [keptBytes, or_imp, forall_and]) hread

/-! ## The macros -/

theorem blockToList_take_16 (b : Block) : b.toList.take 16 = b.toList :=
  List.take_of_length_le (by simp)

/-- ENCRYPT_BLOCK after its LOADKEY part (rule R144). -/
theorem hostReads_encryptBlock {e : Engine} {k : Block} (h : e.KeyReady k) {b : List Byte}
    (hb : b.length = 16) :
    HostReads (.clrd :: b.map .dpush ++ .enc :: readCommands 16) e
      (e.clearInput.withInput b).encrypt (aes128 k (blockOfBytes b)).toList := by
  rw [← blockToList_take_16 (aes128 _ _)]
  exact (runs_clrd h.err h.mact).hostReads_append (by simp [keptBytes])
    (hostReads_encrypt h.clearInput rfl hb (le_refl 16))

theorem issueAll_enc_wrongBlock {s : State} {k : Block} (h : s.toEngine.KeyReady k)
    (hi : s.icnt.val ≠ 16) :
    issueAll ([Instr.enc].map encode) s = .next (s.raise .invalidBlockLength) :=
  issueAll_cons ((command_encode .enc s).trans ((inModes_allowed h.err (by rw [h.mact]; rfl)).trans
    ((requireKey_full h.kcnt).trans (requireBlock_other hi))))

/-- A block of another length, pushed anyway: ENC raises `InvalidBlockLength` (rule R144). -/
theorem issueAll_encryptWrongBlock {s : State} {k b : List Byte} (he : s.err = 0x00)
    (hm : s.mact = false) (hk : k.length = 16) (hb : b.length ≠ 16) :
    ∃ t, issueAll ((loadKeyCommands k ++ Instr.clrd :: b.map Instr.dpush ++ [Instr.enc]).map encode) s =
      .next t ∧ t.err = 0x01 := by
  have hkey := withKey_keyReady he hm hk
  have hready := hkey.clearInput
  have hpush : Runs (.clrd :: b.map .dpush) (s.toEngine.withKey k) _ :=
    (runs_clrd hkey.err hkey.mact).append (runs_pushInput hready.err hready.mact rfl b)
  have hrun := ((runs_loadKey he hm k).append hpush).issueAll s.inputs s.responses
  have hcount : ((s.toEngine.withKey k).clearInput.withInput b).icnt.val ≠ 16 := by
    rwa [Engine.withInput_icnt, Ne, pushCount_val_eq_16_iff]
  rw [List.map_append, issueAll_append hrun]
  exact ⟨_, issueAll_enc_wrongBlock (hready.withInput b) hcount, rfl⟩

theorem length_encryptBlockCommands {k : List Byte} (hk : k.length = 16) (b : List Byte) :
    (encryptBlockCommands k b).length = 17 + 1 + b.length + 1 + 16 := by
  simp [encryptBlockCommands, length_loadKeyCommands hk, readCommands]; omega

/-- Settles O52: CLRD empties the buffer, so ENC finds the 16 bytes of `b`, or another number of bytes. -/
theorem encryptBlockMacro : Obligations.EncryptBlockMacro := by
  intro k b s hk he hm
  have hsize : Config.blockBytes = 16 := rfl
  refine ⟨length_encryptBlockCommands hk b, fun hb => ?_, fun hb => ⟨?_, ?_⟩, fun hb hcount hkey => ?_⟩
  · obtain ⟨t, -, hrun⟩ := ((runs_loadKey he hm k).hostReads_append (keptBytes_loadKey k)
      (hostReads_encryptBlock (withKey_keyReady he hm hk) hb)).run
    refine ⟨t, ?_⟩
    rw [hostEncryptBlock, requireKeyBytes_right _ s hk, hsize, if_neg (not_not.2 hb),
      encryptBlockCommands, List.append_assoc]
    exact hrun
  · rw [hostEncryptBlock, requireKeyBytes_right _ s hk, hsize, if_pos hb]; rfl
  · exact issueAll_encryptWrongBlock he hm hk hb
  · obtain ⟨t, -, hrun⟩ :=
      (hostReads_encryptBlock (e := s.toEngine) ⟨he, hm, hcount, hkey⟩ hb).run
    refine ⟨t, ?_⟩
    rw [encryptBlockCommands, List.append_assoc, ← length_loadKeyCommands hk, List.drop_left]
    exact hrun

/-- The stream of a CMAC and the first `n` bytes of its tag (rule R145). -/
theorem hostReads_cmac {e : Engine} (he : e.err = 0x00) (hm : e.mact = false) {k : List Byte}
    (hk : k.length = 16) (m : List Byte) {n : Nat} (hn : n ≤ 16) :
    HostReads (cmacStream k m ++ readCommands n) e (macAfter (e.withKey k) m).closeMac
      ((cmac (blockOfBytes k) m).toList.take n) := by
  have herr : (macAfter (e.withKey k) m).closeMac.err = 0x00 := by simp [he]
  have hread := hostReads_readCommands herr (Engine.closeMac_ovalid _) hn
  rw [closeMac_macAfter_dout, Engine.withKey_key] at hread
  exact (runs_cmacStream he hm hk m).hostReads_append
    (by simp [cmacStream, loadKeyCommands, keptBytes, or_imp, forall_and]) hread

/-- Settles O53: the tag MFINAL leaves in `DOUT` is read back, whole or in part. -/
theorem cmacMacro : Obligations.CmacMacro := by
  intro k m s hk he hm
  refine ⟨?_, ?_, ?_⟩
  · simp [cmacCommands, length_cmacStream hk, readCommands]; omega
  · obtain ⟨t, -, hrun⟩ := (hostReads_cmac he hm hk m (le_refl 16)).run
    rw [blockToList_take_16] at hrun
    exact ⟨t, (requireKeyBytes_right _ s hk).trans hrun⟩
  · obtain ⟨t, -, hrun⟩ := (hostReads_cmac he hm hk m (show 4 ≤ 16 by decide)).run
    exact ⟨t, hrun⟩

end Sys2Proof.Machine
end

section
/-!
PROOFS. The Payload Cipher as a function and on the engine (45_host_sequences.md rules R148 to R151).
-/

namespace Sys2Proof.Machine

/-! ## The xor of two byte sequences -/

theorem length_xorBytes {a b : List Byte} (h : a.length ≤ b.length) :
    (xorBytes a b).length = a.length := by
  simpa [xorBytes] using h

theorem xorBytes_take (a b : List Byte) : xorBytes a (b.take a.length) = xorBytes a b := by
  have htake : (xorBytes a b).take a.length = xorBytes a b := List.take_of_length_le (by simp [xorBytes])
  rw [← htake, xorBytes, xorBytes, List.take_zipWith, List.take_length]

theorem xorBytes_of_isPrefix {a b c : List Byte} (hbc : b <+: c) (h : a.length ≤ b.length) :
    xorBytes a c = xorBytes a b := by
  obtain ⟨d, rfl⟩ := hbc
  rw [← xorBytes_take a (b ++ d), List.take_append_of_le_length h, xorBytes_take]

theorem xorBytes_xorBytes {a b : List Byte} (h : a.length ≤ b.length) :
    xorBytes (xorBytes a b) b = a := by
  induction a generalizing b with
  | nil => rfl
  | cons x a ih =>
    cases b with
    | nil => cases h
    | cons y b =>
      have hxor : x ^^^ y ^^^ y = x := by rw [BitVec.xor_assoc, BitVec.xor_self, BitVec.xor_zero]
      exact congrArg₂ _ hxor (ih (Nat.le_of_succ_le_succ h))

/-! ## The keystream -/

section
variable (k : Block) (addr : Vector Byte 4) (fcnt : BitVec 32) (dir : Direction)

theorem keystream_succ (m : Nat) : keystream k addr fcnt dir (m + 1) =
    keystream k addr fcnt dir m ++ (aes128 k (counterBlock addr fcnt dir (m + 1))).toList := by
  simp [keystream, List.range_succ]

theorem length_keystream (m : Nat) : (keystream k addr fcnt dir m).length = 16 * m := by
  induction m with
  | zero => rfl
  | succ m ih => rw [keystream_succ, List.length_append, ih, Vector.length_toList, Nat.mul_succ]

theorem keystream_isPrefix {m n : Nat} (h : m ≤ n) :
    keystream k addr fcnt dir m <+: keystream k addr fcnt dir n := by
  induction n, h using Nat.le_induction with
  | base => exact List.prefix_rfl
  | succ n _ ih => rw [keystream_succ]; exact ih.trans (List.prefix_append _ _)

theorem length_le_keystream (pt : List Byte) :
    pt.length ≤ (keystream k addr fcnt dir (payloadBlocks pt.length)).length := by
  rw [length_keystream, payloadBlocks]; omega

theorem payloadBlocks_le_255_iff (n : Nat) : payloadBlocks n ≤ 255 ↔ n ≤ 4080 := by
  rw [payloadBlocks]; omega

theorem encryptPayload_accepted {pt : List Byte} (h : pt.length ≤ 4080) :
    encryptPayload pt k addr fcnt dir =
      .ok (xorBytes pt (keystream k addr fcnt dir (payloadBlocks pt.length))) :=
  if_neg (Nat.not_lt.2 ((payloadBlocks_le_255_iff _).2 h))

end

/-- Settles O54: the keystream of the longest payload begins with that of every shorter one. -/
theorem payloadCipherIsInvolution : Obligations.PayloadCipherIsInvolution := by
  intro k addr fcnt dir
  refine ⟨keystream k addr fcnt dir 255, length_keystream _ _ _ _ _, fun pt hpt => ?_⟩
  have hlen := length_xorBytes (length_le_keystream k addr fcnt dir pt)
  refine ⟨_, encryptPayload_accepted k addr fcnt dir hpt, ?_, hlen, ?_⟩
  · exact (xorBytes_of_isPrefix (keystream_isPrefix k addr fcnt dir ((payloadBlocks_le_255_iff _).2 hpt))
      (length_le_keystream k addr fcnt dir pt)).symm
  · rw [encryptPayload_accepted k addr fcnt dir (hlen.trans_le hpt), hlen,
      xorBytes_xorBytes (length_le_keystream k addr fcnt dir pt)]

/-! ## On the engine -/

@[simp] theorem Engine.withKey_icnt (e : Engine) (k : List Byte) :
    (e.withKey k).icnt = e.icnt := by rw [withKey]

theorem blockOfBytes_toList (b : Block) : blockOfBytes b.toList = b := by
  ext i hi
  simp [hi]

section
variable {e : Engine} {k : Block} (addr : Vector Byte 4) (fcnt : BitVec 32) (dir : Direction) (n : Nat)

theorem hostReads_chunk (h : e.KeyReady k) (hi : e.icnt = 0) (j : Nat) :
    ∃ f, f.KeyReady k ∧ f.icnt = 0 ∧ HostReads (chunkCommands addr fcnt dir n j) e f
      ((aes128 k (counterBlock addr fcnt dir (j + 1))).toList.take (n - 16 * j)) := by
  have hread := hostReads_encrypt h hi (b := (counterBlock addr fcnt dir (j + 1)).toList) (by simp)
    (Nat.min_le_left 16 (n - 16 * j))
  rw [blockOfBytes_toList, Nat.min_comm, ← List.take_take, blockToList_take_16, Nat.min_comm] at hread
  exact ⟨_, (h.withInput _).encrypt, rfl, hread⟩

/-- The chunks read the keystream up to the payload's length; ENC empties the buffer for the next one. -/
theorem hostReads_chunks (h : e.KeyReady k) (hi : e.icnt = 0) (m : Nat) :
    ∃ f, f.KeyReady k ∧ f.icnt = 0 ∧
      HostReads ((List.range m).flatMap (chunkCommands addr fcnt dir n)) e f
        ((keystream k addr fcnt dir m).take n) := by
  induction m with
  | zero => exact ⟨e, h, hi, by simpa [keystream] using HostReads.nil e⟩
  | succ m ih =>
    obtain ⟨f, hf, hfi, hread⟩ := ih
    obtain ⟨g, hg, hgi, hnext⟩ := hostReads_chunk addr fcnt dir n hf hfi m
    refine ⟨g, hg, hgi, ?_⟩
    rw [keystream_succ, List.take_append, length_keystream, List.range_succ, List.flatMap_append,
      List.flatMap_singleton]
    exact hread.append hnext

theorem hostReads_payload {key : List Byte} (he : e.err = 0x00) (hm : e.mact = false)
    (hk : key.length = 16) (hi : e.icnt = 0 ∨ n = 0) :
    ∃ f, f.KeyReady (blockOfBytes key) ∧ HostReads (payloadCommands key addr fcnt dir n) e f
      ((keystream (blockOfBytes key) addr fcnt dir (payloadBlocks n)).take n) := by
  have hready := withKey_keyReady he hm hk
  have hload := runs_loadKey he hm key
  obtain hi | rfl := hi
  · have hempty : (e.withKey key).icnt = 0 := (Engine.withKey_icnt e key).trans hi
    obtain ⟨f, hf, -, hread⟩ := hostReads_chunks addr fcnt dir n hready hempty (payloadBlocks n)
    exact ⟨f, hf, hload.hostReads_append (keptBytes_loadKey key) hread⟩
  · exact ⟨_, hready, hload.hostReads_append (keptBytes_loadKey key) (.nil _)⟩

end

/-- The driver's Payload Cipher, with the sequence of commands it has run (rule R149). -/
theorem hostEncryptPayload_runs {pt key : List Byte} (addr : Vector Byte 4) (fcnt : BitVec 32)
    (dir : Direction) {s : State} (hk : key.length = 16) (he : s.err = 0x00) (hm : s.mact = false)
    (hi : s.icnt.val = 0 ∨ pt = []) (hpt : pt.length ≤ 4080) :
    ∃ t ks, t.err = 0x00 ∧ t.mact = false ∧
      hostSequence (payloadCommands key addr fcnt dir pt.length) [] s = .next ⟨t, .ok ks⟩ ∧
      hostEncryptPayload pt key addr fcnt dir s = .next ⟨t, .ok
        (xorBytes pt (keystream (blockOfBytes key) addr fcnt dir (payloadBlocks pt.length)))⟩ := by
  have hempty : s.icnt = 0 ∨ pt.length = 0 := hi.imp (fun h => Fin.ext h) (congrArg List.length)
  obtain ⟨f, hf, hread⟩ := hostReads_payload addr fcnt dir pt.length he hm hk hempty
  obtain ⟨t, rfl, hrun⟩ := hread.run
  have hshort : ¬ payloadBlocks pt.length > 255 := Nat.not_lt.2 ((payloadBlocks_le_255_iff _).2 hpt)
  refine ⟨t, _, hf.err, hf.mact, hrun, ?_⟩
  rw [hostEncryptPayload, requireKeyBytes_right _ s hk, Config.maxBlockIndex, if_neg hshort, hrun,
    hostThen_ok, xorBytes_take]

/-- Settles O55: the driver applies the keystream it reads from the engine. -/
theorem payloadCipherOnEngine : Obligations.PayloadCipherOnEngine := by
  intro pt key addr fcnt dir s hk he hm
  refine ⟨fun hpt hi => ?_, fun hpt => ?_⟩
  · obtain ⟨t, -, hte, htm, -, hrun⟩ := hostEncryptPayload_runs addr fcnt dir hk he hm hi hpt
    exact ⟨t, _, hrun, encryptPayload_accepted _ addr fcnt dir hpt, hte, htm⟩
  · have hlong : payloadBlocks pt.length > 255 :=
      Nat.not_le.1 ((payloadBlocks_le_255_iff _).not.2 (Nat.not_le.2 hpt))
    rw [hostEncryptPayload, requireKeyBytes_right _ s hk, Config.maxBlockIndex, if_pos hlong, hostFail]

end Sys2Proof.Machine
end

section
/-!
PROOFS. The frame as a function (45_host_sequences.md rules R152 to R157): its validation, its layout, and the
width of the frame counter in its parts.
-/

namespace Sys2Proof.Machine

/-! ## Validation -/

section
variable {addr pt nwkKey appKey : List Byte}

theorem validateFrame_keys (h : nwkKey.length ≠ 16 ∨ appKey.length ≠ 16) :
    validateFrame addr pt nwkKey appKey = some .invalidKeyLength := if_pos h

section
variable (hn : nwkKey.length = 16) (hk : appKey.length = 16)
include hn hk

theorem validateFrame_of_keys : validateFrame addr pt nwkKey appKey =
    if addr.length ≠ 4 then some .invalidAddressLength
    else if 255 < payloadBlocks pt.length then some .payloadTooLarge
    else if 255 < 9 + pt.length then some .frameTooLarge
    else none :=
  if_neg (by rw [not_or, not_not, not_not]; exact ⟨hn, hk⟩)

theorem validateFrame_address (ha : addr.length ≠ 4) :
    validateFrame addr pt nwkKey appKey = some .invalidAddressLength := by
  rw [validateFrame_of_keys hn hk, if_pos ha]

variable (ha : addr.length = 4)
include ha

theorem validateFrame_payload (hp : 4080 < pt.length) :
    validateFrame addr pt nwkKey appKey = some .payloadTooLarge := by
  have hlong : 255 < payloadBlocks pt.length :=
    Nat.not_le.1 (mt (payloadBlocks_le_255_iff _).1 (Nat.not_le.2 hp))
  rw [validateFrame_of_keys hn hk, if_neg (not_not.2 ha), if_pos hlong]

theorem validateFrame_of_payload (hp : pt.length ≤ 4080) : validateFrame addr pt nwkKey appKey =
    if 255 < 9 + pt.length then some .frameTooLarge else none := by
  have hshort : ¬ 255 < payloadBlocks pt.length := Nat.not_lt.2 ((payloadBlocks_le_255_iff _).2 hp)
  rw [validateFrame_of_keys hn hk, if_neg (not_not.2 ha), if_neg hshort]

theorem validateFrame_frame (hp : pt.length ≤ 4080) (hf : 247 ≤ pt.length) :
    validateFrame addr pt nwkKey appKey = some .frameTooLarge := by
  rw [validateFrame_of_payload hn hk ha hp, if_pos (by omega)]

theorem validateFrame_passes (hf : pt.length ≤ 246) : validateFrame addr pt nwkKey appKey = none := by
  rw [validateFrame_of_payload hn hk ha (by omega), if_neg (by omega)]

end

theorem validateFrame_eq_none (h : validateFrame addr pt nwkKey appKey = none) :
    nwkKey.length = 16 ∧ appKey.length = 16 ∧ pt.length ≤ 246 := by
  unfold validateFrame Config.keyBytes Config.maxFrameBytes at h
  split_ifs at h with hkeys _ _ hframe
  rw [not_or, not_not, not_not] at hkeys
  exact ⟨hkeys.1, hkeys.2, by omega⟩

end

/-! ## The parts of a frame -/

/-- The header and the encrypted payload of a frame (rule R156). -/
def frameBody (addr : List Byte) (fcnt : BitVec 32) (fport : Byte) (pt appKey : List Byte) : List Byte :=
  frameHeader (addressOf addr) fcnt fport ++
    xorBytes pt (keystream (blockOfBytes appKey) (addressOf addr) fcnt .uplink (payloadBlocks pt.length))

/-- The four tag bytes of a frame with that body (rules R147, R153). -/
def frameMic (addr : List Byte) (fcnt : BitVec 32) (nwkKey body : List Byte) : List Byte :=
  micOf (cmac (blockOfBytes nwkKey) (micMessage body (addressOf addr) fcnt .uplink))

section
variable (addr pt nwkKey appKey body : List Byte) (fcnt : BitVec 32) (fport : Byte)

theorem length_frameHeader (a : Vector Byte 4) : (frameHeader a fcnt fport).length = 9 := by
  simp [frameHeader]

theorem length_frameBody : (frameBody addr fcnt fport pt appKey).length = 9 + pt.length := by
  rw [frameBody, List.length_append, length_frameHeader, length_xorBytes (length_le_keystream _ _ _ _ _)]

theorem length_frameMic : (frameMic addr fcnt nwkKey body).length = 4 := by
  simp [frameMic, micOf, Config.micBytes]

variable {addr pt nwkKey appKey}

theorem buildUplinkFrame_error {e : HostError} (h : validateFrame addr pt nwkKey appKey = some e) :
    buildUplinkFrame addr fcnt fport pt nwkKey appKey = .error e := by
  simp [buildUplinkFrame, h]

/-- The driver makes the same test before its first command. -/
theorem hostBuildUplinkFrame_error {e : HostError} (h : validateFrame addr pt nwkKey appKey = some e)
    (s : State) : hostBuildUplinkFrame addr fcnt fport pt nwkKey appKey s = .next ⟨s, .error e⟩ := by
  simp [hostBuildUplinkFrame, h, hostFail]

/-- A valid frame fits the limits of both stages, so neither fails. -/
theorem buildUplinkFrame_valid (h : validateFrame addr pt nwkKey appKey = none) :
    buildUplinkFrame addr fcnt fport pt nwkKey appKey =
      .ok (frameBody addr fcnt fport pt appKey ++
        frameMic addr fcnt nwkKey (frameBody addr fcnt fport pt appKey)) := by
  obtain ⟨-, -, hpt⟩ := validateFrame_eq_none h
  have henc := encryptPayload_accepted (blockOfBytes appKey) (addressOf addr) fcnt .uplink
    (show pt.length ≤ 4080 by omega)
  have hmic : computeMic (frameBody addr fcnt fport pt appKey) (blockOfBytes nwkKey) (addressOf addr) fcnt
      .uplink = .ok (frameMic addr fcnt nwkKey (frameBody addr fcnt fport pt appKey)) :=
    if_neg (by rw [length_frameBody, Config.maxFrameBytes]; omega)
  rw [frameBody] at hmic ⊢
  simp only [buildUplinkFrame, h, henc, hmic]

theorem buildUplinkFrame_ok {frame : List Byte}
    (h : buildUplinkFrame addr fcnt fport pt nwkKey appKey = .ok frame) :
    pt.length ≤ 246 ∧ frame = frameBody addr fcnt fport pt appKey ++
      frameMic addr fcnt nwkKey (frameBody addr fcnt fport pt appKey) := by
  cases hv : validateFrame addr pt nwkKey appKey with
  | some e => rw [buildUplinkFrame_error _ _ hv] at h; cases h
  | none =>
    rw [buildUplinkFrame_valid _ _ hv] at h
    obtain ⟨-, -, hpt⟩ := validateFrame_eq_none hv
    exact ⟨hpt, (Except.ok.inj h).symm⟩

end

/-- Settles O59: function and driver make the same test first. -/
theorem validationOrder : Obligations.ValidationOrder := by
  intro addr pt nwkKey appKey fcnt fport s
  have hfails {e : HostError} (h : validateFrame addr pt nwkKey appKey = some e) :=
    And.intro (buildUplinkFrame_error fcnt fport h) (hostBuildUplinkFrame_error fcnt fport h s)
  exact ⟨fun hkeys => hfails (validateFrame_keys hkeys),
    fun hn hk ha => hfails (validateFrame_address hn hk ha),
    fun hn hk ha hp => hfails (validateFrame_payload hn hk ha hp),
    fun hn hk ha hf hp => hfails (validateFrame_frame hn hk ha hp hf),
    fun hn hk ha hf => ⟨_, buildUplinkFrame_valid fcnt fport (validateFrame_passes hn hk ha hf)⟩⟩

theorem counterBytes_eq (fcnt : BitVec 32) :
    intToLE (fcnt.toNat % 65536) 2 = [fcnt.extractLsb' 0 8, fcnt.extractLsb' 8 8] := by
  have hlow : BitVec.ofNat 8 (fcnt.toNat % 65536) = fcnt.extractLsb' 0 8 := by
    apply BitVec.eq_of_toNat_eq
    simp
  have hhigh : BitVec.ofNat 8 (fcnt.toNat % 65536 / 256) = fcnt.extractLsb' 8 8 := by
    apply BitVec.eq_of_toNat_eq
    simp [Nat.shiftRight_eq_div_pow]; omega
  rw [intToLE_succ, intToLE_succ, hlow, hhigh]; rfl

theorem frameHeader_addressOf (addr : List Byte) (fcnt : BitVec 32) (fport : Byte) :
    frameHeader (addressOf addr) fcnt fport = [0x40, addr.getD 3 0, addr.getD 2 0, addr.getD 1 0,
      addr.getD 0 0, 0x00, fcnt.extractLsb' 0 8, fcnt.extractLsb' 8 8, fport] := by
  rw [frameHeader, counterBytes_eq]
  simp [addressOf]

/-- Settles O58: the frame is header, encrypted payload and MIC, cut at 9 and at `9 + N` bytes. -/
theorem frameLayout : Obligations.FrameLayout := by
  intro addr pt nwkKey appKey frame fcnt fport h
  obtain ⟨hpt, rfl⟩ := buildUplinkFrame_ok fcnt fport h
  have hbody := length_frameBody addr pt appKey fcnt fport
  have hheader := length_frameHeader fcnt fport (addressOf addr)
  have henc := length_xorBytes (length_le_keystream (blockOfBytes appKey) (addressOf addr) fcnt .uplink pt)
  refine ⟨?_, ?_, ?_, ?_⟩
  · rw [List.length_append, hbody, length_frameMic]
  · rw [frameBody, List.append_assoc, List.take_left' hheader, frameHeader_addressOf]
  · rw [encryptPayload_accepted _ _ _ _ (by omega), frameBody, List.append_assoc,
      List.drop_left' hheader, List.take_left' henc]
  · rw [List.drop_left' hbody, List.take_left' hbody, ← hbody]; rfl

/-! ## The frame counter (rule R157) -/

theorem frameHeader_inj {addr : Vector Byte 4} {f g : BitVec 32} {fport : Byte} :
    frameHeader addr f fport = frameHeader addr g fport ↔ f.toNat % 65536 = g.toNat % 65536 := by
  have hlow (v : Nat) : v % 65536 < 2 ^ (8 * 2) := Nat.mod_lt v (by decide)
  rw [frameHeader, frameHeader, List.append_left_inj, List.append_right_inj, intToLE_inj (hlow _) (hlow _)]

theorem toList_blockOfBytes {bs : List Byte} (h : bs.length = 16) : (blockOfBytes bs).toList = bs := by
  refine List.ext_getElem (by simp [h]) fun i _ hi => ?_
  simp [hi]

theorem blockOfBytes_inj {a b : List Byte} (ha : a.length = 16) (hb : b.length = 16) :
    blockOfBytes a = blockOfBytes b ↔ a = b := by
  refine ⟨fun h => ?_, congrArg blockOfBytes⟩
  rw [← toList_blockOfBytes ha, h, toList_blockOfBytes hb]

theorem contextBlock_inj {first last : Byte} {addr : Vector Byte 4} {f g : BitVec 32} {dir : Direction} :
    contextBlock first addr f dir last = contextBlock first addr g dir last ↔ f = g := by
  rw [contextBlock, contextBlock, blockOfBytes_inj (by simp) (by simp), List.append_left_inj,
    List.append_right_inj, intToLE_inj f.isLt g.isLt, BitVec.toNat_inj]

/-- Settles O60. -/
theorem counterWidthInHeaderAndBlocks : Obligations.CounterWidthInHeaderAndBlocks :=
  fun _ _ _ _ _ _ => ⟨frameHeader_inj.symm, contextBlock_inj, contextBlock_inj⟩

end Sys2Proof.Machine
end

section
/-!
PROOFS. The command sequence of a frame: its length, and its run on the engine (45_host_sequences.md rules R159
and R160).
-/

namespace Sys2Proof.Machine

/-! ## How many commands -/

section
variable (addr : Vector Byte 4) (fcnt : BitVec 32) (dir : Direction) (n : Nat)

@[simp] theorem length_readCommands : (readCommands n).length = n := by simp [readCommands]

theorem length_chunkCommands (j : Nat) :
    (chunkCommands addr fcnt dir n j).length = 17 + min 16 (n - 16 * j) := by
  simp [chunkCommands]; omega

/-- Each chunk pushes 16 bytes and encrypts them; together the chunks read one byte per payload byte. -/
theorem length_chunks (m : Nat) :
    ((List.range m).flatMap (chunkCommands addr fcnt dir n)).length = 17 * m + min n (16 * m) := by
  induction m with
  | zero => simp
  | succ m ih =>
    rw [List.range_succ, List.flatMap_append, List.length_append, ih, List.flatMap_singleton,
      length_chunkCommands]
    omega

theorem length_payloadCommands {key : List Byte} (hk : key.length = 16) :
    (payloadCommands key addr fcnt dir n).length = 17 + 17 * ((n + 15) / 16) + n := by
  rw [payloadCommands, List.length_append, length_loadKeyCommands hk, length_chunks, payloadBlocks]
  omega

theorem length_micCommands {key frame : List Byte} (hk : key.length = 16) :
    (micCommands key addr fcnt dir frame).length = frame.length + 39 := by
  simp [micCommands, length_cmacStream hk, micMessage, Config.micBytes]; omega

end

/-- Settles O57: the payload's commands, those of the MIC over `B0` and the body, and SRST. -/
theorem frameCommandCount : Obligations.FrameCommandCount := by
  intro addr fcnt n body nwkKey appKey hn hk hbody
  rw [frameCommands, List.length_append, List.length_append, length_payloadCommands _ _ _ _ hk,
    length_micCommands _ _ _ hn, hbody, List.length_singleton]
  omega

/-! ## The run -/

/-- The driver's MIC Generator (rules R147 and R153). -/
theorem hostComputeMic_runs {frame key : List Byte} (addr : Vector Byte 4) (fcnt : BitVec 32)
    (dir : Direction) {s : State} (hk : key.length = 16) (he : s.err = 0x00) (hm : s.mact = false)
    (hf : frame.length ≤ 255) :
    ∃ t, hostSequence (micCommands key addr fcnt dir frame) [] s =
        .next ⟨t, .ok (micOf (cmac (blockOfBytes key) (micMessage frame addr fcnt dir)))⟩ ∧
      hostComputeMic frame key addr fcnt dir s =
        hostSequence (micCommands key addr fcnt dir frame) [] s := by
  obtain ⟨t, -, hrun⟩ :=
    (hostReads_cmac he hm hk (micMessage frame addr fcnt dir) (show 4 ≤ 16 by decide)).run
  refine ⟨t, hrun, ?_⟩
  rw [hostComputeMic, requireKeyBytes_right _ s hk, Config.maxFrameBytes, if_neg (Nat.not_lt.2 hf)]

/-- The closing SRST (rule R160). -/
theorem hostSequence_srst (kept : List Byte) (s : State) :
    hostSequence [.srst] kept s = .next ⟨s.softReset, .ok kept⟩ := by
  have hreset : command (encode .srst) s = .next s.softReset := command_encode .srst s
  rw [hostSequence_cons hreset (by simp [lastResponse]; rfl)]
  simp [keptBytes]

/-- A valid frame on the engine: the three parts of rule R159's sequence, one after another. -/
theorem hostBuildUplinkFrame_valid {addr pt nwkKey appKey : List Byte} (fcnt : BitVec 32) (fport : Byte)
    {s : State} (he : s.err = 0x00) (hm : s.mact = false) (hi : s.icnt.val = 0 ∨ pt = [])
    (hv : validateFrame addr pt nwkKey appKey = none) :
    ∃ t, hostBuildUplinkFrame addr fcnt fport pt nwkKey appKey s =
        .next ⟨t, .ok (frameBody addr fcnt fport pt appKey ++
          frameMic addr fcnt nwkKey (frameBody addr fcnt fport pt appKey))⟩ ∧
      t.toEngine = Engine.reset ∧
      issueAll ((frameCommands (addressOf addr) fcnt pt.length (frameBody addr fcnt fport pt appKey)
        nwkKey appKey).map encode) s = .next t := by
  obtain ⟨hn, hk, hpt⟩ := validateFrame_eq_none hv
  obtain ⟨t, ks, hte, htm, hpayload, henc⟩ :=
    hostEncryptPayload_runs (addressOf addr) fcnt .uplink hk he hm hi (hpt.trans (by decide))
  obtain ⟨u, hmicrun, hmic⟩ := hostComputeMic_runs (frame := frameBody addr fcnt fport pt appKey)
    (addressOf addr) fcnt .uplink hn hte htm (by rw [length_frameBody]; omega)
  refine ⟨u.softReset, ?_, rfl, ?_⟩
  · simp only [hostBuildUplinkFrame, hv, henc, hostThen_ok]
    rw [← frameBody, hmic, hmicrun, hostThen_ok, hostSequence_srst]; rfl
  · rw [frameCommands, List.map_append, List.map_append, List.append_assoc,
      issueAll_append (issueAll_of_hostSequence hpayload),
      issueAll_append (issueAll_of_hostSequence hmicrun)]
    exact issueAll_of_hostSequence (hostSequence_srst [] u)

/-- Settles O56: the body of the frame is its first `9 + N` bytes. -/
theorem frameAssemblyOnEngine : Obligations.FrameAssemblyOnEngine := by
  intro addr pt nwkKey appKey fcnt fport s he hm hi
  cases hv : validateFrame addr pt nwkKey appKey with
  | some e => exact ⟨hostBuildUplinkFrame_error fcnt fport hv s, buildUplinkFrame_error fcnt fport hv⟩
  | none =>
    obtain ⟨t, hrun, hreset, hissue⟩ := hostBuildUplinkFrame_valid fcnt fport he hm hi hv
    refine ⟨t, _, hrun, buildUplinkFrame_valid fcnt fport hv, hreset, ?_⟩
    rwa [List.take_left' (length_frameBody addr pt appKey fcnt fport)]

end Sys2Proof.Machine
end

section
/-!
PROOFS. The exceptions (60_exceptions.md rules R173 to R183): illegal words, fault entry, the faulted mode and
the ways out of it, and the order of the tests.
-/

namespace Sys2Proof.Machine

/-! ## Words offered at the port -/

/-- Settles O9. -/
theorem idlePortKeepsState : Obligations.IdlePortKeepsState :=
  ⟨fun _ hin => step_nil hin, fun _ _ _ hin => (step_cons hin).trans (portCycle_idle rfl rfl _)⟩

/-- A word that does not execute while faulted answers `0x0100` and changes nothing (rule R178). -/
theorem ignore_faulted {s : State} (hf : s.err ≠ 0x00) :
    s.ignore = { s with responses := s.responses ++ [0x0100] } :=
  (answer_faulted hf 0x00).trans rfl

/-- Settles O7: the step is `illegalWord` on the state with the port cycle consumed, and `ERR` alone says which
way that goes. -/
theorem stepTakesIllegalCommand : Obligations.StepTakesIllegalCommand := by
  intro s rest w why hin hw
  rw [step_cons hin, portCycle_issued rfl rfl, command_illegal hw]
  refine ⟨fun (he : ({ s with inputs := rest } : State).err = 0x00) => ?_,
    fun (hf : ({ s with inputs := rest } : State).err ≠ 0x00) => ?_⟩
  · rw [illegalWord_unfaulted he]
  · rw [illegalWord_faulted hf, ignore_faulted hf]

/-! ## Fault entry and the faulted mode -/

/-- Settles O30: a command that finds no error and leaves one has raised it, and fault entry writes every
item of the engine. -/
theorem faultingCommandZeroises : Obligations.FaultingCommandZeroises :=
  ⟨fun s c => congrArg (State.mk (s.toEngine.faultEntry c) s.inputs) (raise_response s c),
    fun _ _ _ => command_raised⟩

theorem exec_ignored {i : Instr} {s : State} (hf : s.err ≠ 0x00) (hsrst : i ≠ .srst)
    (hstat : i ≠ .rdstat) (herr : i ≠ .rderr) : exec i s = .next s.ignore := by
  cases i with
  | srst => exact absurd rfl hsrst
  | rdstat => exact absurd rfl hstat
  | rderr => exact absurd rfl herr
  | _ => unfold exec; exact inModes_faulted hf

theorem command_ignored {w : CommandWord} {s : State} (hf : s.err ≠ 0x00) (hsrst : w ≠ 0x0100)
    (hstat : w ≠ 0x3100) (herr : w ≠ 0x3200) : command w s = .next s.ignore := by
  cases hw : decode w with
  | error why => rw [command_illegal hw, illegalWord_faulted hf]
  | ok i =>
    have hword {j : Instr} (hj : w ≠ encode j) : i ≠ j := fun hij =>
      hj ((encode_of_decode hw).symm.trans (congrArg encode hij))
    rw [command_decoded hw]
    exact exec_ignored hf (hword hsrst) (hword hstat) (hword herr)

/-- SRST stands before every test (rule R72). -/
theorem command_srst (s : State) : command 0x0100 s = .next s.softReset := command_encode .srst s

/-- Settles O31: the two reads answer as in O11, SRST resets, and any other word is ignored. -/
theorem faultedEngineIgnoresOthers : Obligations.FaultedEngineIgnoresOthers := by
  intro s w hinv hf
  obtain ⟨-, -, hreads⟩ := everyCommandAnsweredOnce
  obtain ⟨hrdstat, hrderr⟩ := hreads s hinv hf
  split_ifs with hstat herr hsrst
  · rw [hstat, hrdstat]
  · rw [herr, hrderr]
  · rw [hsrst, command_srst]; rfl
  · rw [command_ignored hf hsrst hstat herr, ignore_faulted hf]

/-- Settles O35: both exits give the reset engine; any other step that changed `ERR` would contradict O34. -/
theorem onlyResetLeavesFaulted : Obligations.OnlyResetLeavesFaulted := by
  intro s p rest hin hf
  refine ⟨fun hexit => ?_, fun hstays t h => ?_⟩
  · rw [step_cons hin]
    cases hr : p.rstN with
    | false => exact ⟨_, portCycle_reset hr _, rfl⟩
    | true =>
      obtain ⟨hv, hw⟩ := hexit.resolve_left (by simp [hr])
      rw [portCycle_issued hr hv, hw]
      exact ⟨_, command_srst _, rfl⟩
  · by_contra hne
    obtain ⟨he, -⟩ | ⟨-, q, later, hin', hexit⟩ := errKeepsFirstCode s t h hne
    · exact hf he
    · cases hin.symm.trans hin'
      exact hstays hexit

/-! ## The order of the tests (rule R177) -/

/-- `ERR` after a command that passes the mode test: tests 4 to 6 of rule R177. `exec_allowed_err` ties it to
`exec`. -/
def errAfterMode : Instr → Engine → Byte
  | .enc, e => if e.kcnt.val ≠ 16 then 0x02 else if e.icnt.val ≠ 16 then 0x01 else 0x00
  | .minit, e => if e.kcnt.val ≠ 16 then 0x02 else 0x00
  | .rdout _, e => if e.ovalid then 0x00 else 0x05
  | _, _ => 0x00

theorem errAfterMode_ne_sequenceError (i : Instr) (e : Engine) : errAfterMode i e ≠ 0x04 := by
  have hnone : (0x00 : Byte) ≠ 0x04 := by decide
  cases i with
  | enc | minit | rdout _ => rw [errAfterMode]; split_ifs <;> decide
  | _ => exact hnone

theorem exec_allowed_err {i : Instr} {s t : State} (he : s.err = 0x00)
    (ha : (modeRuleOf i).allows s.mact = true) (h : exec i s = .next t) :
    t.err = errAfterMode i s.toEngine := by
  cases i with unfold exec at h
  | srst => cases h; rfl
  | rdstat | rderr => cases h; exact he
  | nop | clrk | clrd | kpush _ | dpush _ | mabort =>
    cases (inModes_allowed he ha).symm.trans h
    exact he
  | mpush d =>
    obtain ⟨-, rfl⟩ := appendMessage_next ((inModes_allowed he ha).symm.trans h)
    exact s.toEngine.absorbIfFull_err.trans he
  | mfinal =>
    obtain ⟨hf, -⟩ | ⟨-, -, -, rfl⟩ | ⟨-, hm, -⟩ := execMfinal_next h
    · exact absurd he hf
    · exact he
    · cases ha.symm.trans hm
  | enc =>
    obtain ⟨hk, h⟩ | ⟨hk, rfl⟩ := requireKey_next ((inModes_allowed he ha).symm.trans h)
    · obtain ⟨hi, h⟩ | ⟨hi, rfl⟩ := requireBlock_next h
      · cases h; simp [errAfterMode, hk, hi, he]
      · simp [errAfterMode, hk, hi, EngineError.code]
    · simp [errAfterMode, hk, EngineError.code]
  | minit =>
    obtain ⟨hk, h⟩ | ⟨hk, rfl⟩ := requireKey_next ((inModes_allowed he ha).symm.trans h)
    · cases h; simp [errAfterMode, hk, he]
    · simp [errAfterMode, hk, EngineError.code]
  | rdout idx =>
    obtain ⟨ho, h⟩ | ⟨ho, rfl⟩ := requireOutput_next ((inModes_allowed he ha).symm.trans h)
    · cases h; simp [errAfterMode, ho, he]
    · simp [errAfterMode, ho, EngineError.code]

/-- While faulted `ERR` stays, but for SRST (rules R178, R180). -/
theorem command_faulted_err {w : CommandWord} {s t : State} (h : command w s = .next t)
    (hf : s.err ≠ 0x00) : t.err = if w = 0x0100 then 0x00 else s.err := by
  split_ifs with hw
  · rw [hw, command_srst] at h
    cases h; rfl
  · by_contra hne
    obtain ⟨he, -⟩ | ⟨-, hw'⟩ := command_err h hne
    · exact hf he
    · exact hw hw'

/-- Settles O32: an illegal word never reaches the tests of a command, and the mode test stands before the
tests of `errAfterMode`. -/
theorem firstTestDecidesError : Obligations.FirstTestDecidesError := by
  refine fun s t w h => ⟨command_faulted_err h, fun he => ?_⟩
  cases hw : decode w with
  | error why =>
    rw [command_illegal hw, illegalWord_unfaulted he] at h
    cases h; rfl
  | ok i =>
    rw [command_decoded hw] at h
    cases ha : (modeRuleOf i).allows s.mact with
    | false =>
      rw [exec_forbidden he ha] at h
      cases h; simp [ha, EngineError.code]
    | true =>
      rw [exec_allowed_err he ha h]
      simp only [ha]
      cases i <;> rfl

/-- Settles O33: `SequenceError` is the mode test's alone; in MAC mode item 6 of rule R24 leaves RDOUT no
output. -/
theorem modeDecidesLegality : Obligations.ModeDecidesLegality := by
  refine ⟨fun _ _ => exec_forbidden, fun s t i he ha h => ?_, fun s idx hinv he hm => ?_⟩
  · rw [exec_allowed_err he ha h]
    exact errAfterMode_ne_sequenceError i s.toEngine
  · obtain ⟨-, ho, -⟩ := hinv.macOpen hm
    exact (inModes_allowed he rfl).trans (requireOutput_absent ho)

end Sys2Proof.Machine
end

section
/-!
PROOFS. Hardware reset, and the order of key and data pushes (70_reset_and_hazards.md rules R190 and R195).
-/

namespace Sys2Proof.Machine

/-- Settles O8: the reset test of a port cycle stands before the command, and `issues` needs `cmd_ready`. -/
theorem hardwareResetOverrides : Obligations.HardwareResetOverrides := by
  intro s p rest hin hr
  have hready : p.cmdReady = false := hr
  have hissues : p.issues = false := by simp [PortCycle.issues, hready]
  have hstep : step s = .next (State.hardwareReset { s with inputs := rest }) :=
    (step_cons hin).trans (portCycle_reset hr _)
  exact ⟨hstep, hready, hissues⟩

/-- KPUSH writes `KEY` and `KCNT`, DPUSH writes `IBUF` and `ICNT`, and neither reads what the other writes. -/
theorem pushKey_pushInput_comm (e : Engine) (k d : Byte) :
    (e.pushKey k).pushInput d = (e.pushInput d).pushKey k := rfl

/-- Settles O39: neither push leaves IDLE mode or sets `ERR`, so the second completes after the first; both
orders answer `0x0000` twice, and their engines are equal by `pushKey_pushInput_comm`. -/
theorem keyAndDataPushesCommute : Obligations.KeyAndDataPushesCommute := by
  intro s k d he hm
  have hkey : Completes (.kpush k) s.toEngine := completes_kpush he hm k
  have hkeyThenData : Completes (.dpush d) (s.pushKey k) :=
    completes_dpush ((s.pushKey_err k).trans he) ((s.pushKey_mact k).trans hm) d
  have hdata : Completes (.dpush d) s.toEngine := completes_dpush he hm d
  have hdataThenKey : Completes (.kpush k) (s.pushInput d) :=
    completes_kpush ((s.pushInput_err d).trans he) ((s.pushInput_mact d).trans hm) k
  rw [Completes, effectOf, ← pushKey_pushInput_comm] at hdataThenKey
  exact ⟨_, _, _, hkey s.inputs s.responses, hkeyThenData _ _, hdata s.inputs s.responses,
    hdataThenKey _ _⟩

end Sys2Proof.Machine
end

section
/-!
PROOFS. MAC mode with `ICNT = 17`, which item 6 of 10_state.md rule R24 excludes: the model stops (log entry 6).
-/

namespace Sys2Proof.Machine

theorem appendMessage_noRoom {e : Engine} (h : 16 ≤ e.icnt.val) (d : Byte) (s : State) :
    appendMessage d s e = .fault .bufferIndexOutOfRange := if_neg h.not_gt

/-- MPUSH absorbs a buffer of exactly 16 bytes, so one past that is still past it when the byte is stored. -/
theorem exec_mpush_overrun {s : State} (he : s.err = 0x00) (hm : s.mact = true) (hi : 16 < s.icnt.val)
    (d : Byte) : exec (.mpush d) s = .fault .bufferIndexOutOfRange := by
  have hkept : s.toEngine.absorbIfFull = s.toEngine := if_neg hi.ne'
  rw [exec, execMpush, inModes_allowed (rule := .macOnly) he hm, hkept, appendMessage_noRoom hi.le]

theorem exec_mfinal_overrun {s : State} (he : s.err = 0x00) (hm : s.mact = true)
    (hi : 16 < s.icnt.val) : exec .mfinal s = .fault .bufferIndexOutOfRange := by
  rw [exec, execMfinal, inModes_allowed (rule := .macOnly) he hm, if_neg hi.not_ge]

theorem Engine.Inv.not_macOverrun {e : Engine} (h : e.Inv) : ¬ (e.mact = true ∧ e.icnt.val = 17) := by
  rintro ⟨hm, hi⟩
  obtain ⟨-, -, hle, -⟩ := h.macOpen hm
  omega

/-- Settles O29: neither command has a place for byte 17, and item 6 of rule R24 keeps `ICNT` at 16 or below
in MAC mode. -/
theorem macBufferOverrunStops : Obligations.MacBufferOverrunStops := by
  refine ⟨fun s d he hm hi => ?_, fun e hinv => hinv.not_macOverrun⟩
  have hover : 16 < s.icnt.val := by omega
  exact ⟨exec_mpush_overrun he hm hover d, exec_mfinal_overrun he hm hover⟩

end Sys2Proof.Machine
end
